-- ==== Sys2Proof/Word.lean ====
section
/-! DEFINITION. The bit-vector widths of the block (00_scope.md R5, R6; 30_encoding.md R51). Bit 0 is always the least
significant bit (R7). -/

namespace Sys2Proof

/-- A byte: an opcode, an operand byte or a checksum (R5, R8). -/
abbrev Byte := BitVec 8

/-- A raw value of the sensor, 16 bits unsigned (R5). -/
abbrev Raw := BitVec 16

/-- A result word: the width OUT_W of `T`, `RH` and `SN` (R6). -/
abbrev Word32 := BitVec 32

/-- The request word, REQ_W = 56 bits: an opcode and six operand bytes (R6, R51). -/
abbrev Request := BitVec 56

end Sys2Proof
end

