-- ==== Sys2Proof/Syntax.lean ====
section
/-! DEFINITION. The operations of the block (30_encoding.md R52), one constructor per row of spec/opcode_table.json. An
operation carries exactly the operand bytes it reads (20_memory.md R43); a byte it does not read is not part of it (R55). -/

namespace Sys2Proof

/-- The six operations, in the order of the opcode map (R52). -/
inductive Instr where
  /-- Compute the checksum of the payload `b0 b1` (40_checksum.md R73). -/
  | crc8 (b0 b1 : Byte)
  /-- Validate the field `b0 b1 b2` (40_checksum.md R77). -/
  | chk (b0 b1 b2 : Byte)
  /-- Decode the raw value `b0 b1` to temperature (41_decode.md R94). -/
  | dect (b0 b1 : Byte)
  /-- Decode the raw value `b0 b1` to relative humidity (41_decode.md R100). -/
  | decrh (b0 b1 : Byte)
  /-- Validate a measurement frame and decode both quantities (42_frame.md R111). -/
  | meas (b0 b1 b2 b3 b4 b5 : Byte)
  /-- Validate a serial frame and assemble the serial number (42_frame.md R113). -/
  | ser (b0 b1 b2 b3 b4 b5 : Byte)
  deriving DecidableEq, Repr

end Sys2Proof
end

