-- ==== Sys2Proof/Decode.lean ====
section
/-! DEFINITION. The request word (30_encoding.md R51), its decoder and its encoder. Decoding is total on every 56-bit word:
one of the six operations, or a refusal that names the illegal opcode (R53, R57). -/

namespace Sys2Proof

/-- The field `op`, bits 55:48 (R51). -/
def reqOp (r : Request) : Byte := r.extractLsb' 48 8

/-- Operand byte `B0`, bits 47:40 (R51). -/
def reqB0 (r : Request) : Byte := r.extractLsb' 40 8

/-- Operand byte `B1`, bits 39:32 (R51). -/
def reqB1 (r : Request) : Byte := r.extractLsb' 32 8

/-- Operand byte `B2`, bits 31:24 (R51). -/
def reqB2 (r : Request) : Byte := r.extractLsb' 24 8

/-- Operand byte `B3`, bits 23:16 (R51). -/
def reqB3 (r : Request) : Byte := r.extractLsb' 16 8

/-- Operand byte `B4`, bits 15:8 (R51). -/
def reqB4 (r : Request) : Byte := r.extractLsb' 8 8

/-- Operand byte `B5`, bits 7:0 (R51). -/
def reqB5 (r : Request) : Byte := r.extractLsb' 0 8

/-- The six legal opcodes (30_encoding.md R52). -/
def legalOps : List Byte := [0x01, 0x02, 0x03, 0x04, 0x05, 0x06]

/-- Why a word is no operation. There is one reason: its opcode (R57). -/
inductive DecodeError where
  /-- The opcode is `0x00` or lies in `0x07` to `0xFF` (R57). -/
  | illegalOpcode (op : Byte)
  deriving DecidableEq, Repr

/-- The decoder: the opcode field alone selects the operation (R52, R53), and only the bytes the operation reads are taken
(20_memory.md R43). -/
def decode (r : Request) : Except DecodeError Instr :=
  match (reqOp r).toNat with
  | 0x01 => .ok (.crc8 (reqB0 r) (reqB1 r))
  | 0x02 => .ok (.chk (reqB0 r) (reqB1 r) (reqB2 r))
  | 0x03 => .ok (.dect (reqB0 r) (reqB1 r))
  | 0x04 => .ok (.decrh (reqB0 r) (reqB1 r))
  | 0x05 => .ok (.meas (reqB0 r) (reqB1 r) (reqB2 r) (reqB3 r) (reqB4 r) (reqB5 r))
  | 0x06 => .ok (.ser (reqB0 r) (reqB1 r) (reqB2 r) (reqB3 r) (reqB4 r) (reqB5 r))
  | _ => .error (.illegalOpcode (reqOp r))

/-- A request word from its seven bytes, most significant first, as it reads in hexadecimal (R51). -/
def packRequest (op b0 b1 b2 b3 b4 b5 : Byte) : Request := op ++ b0 ++ b1 ++ b2 ++ b3 ++ b4 ++ b5

/-- The canonical encoding (R55, R58): bytes the operation does not read are `0x00`. -/
def encode : Instr → Request
  | .crc8 b0 b1 => packRequest 0x01 b0 b1 0x00 0x00 0x00 0x00
  | .chk b0 b1 b2 => packRequest 0x02 b0 b1 b2 0x00 0x00 0x00
  | .dect b0 b1 => packRequest 0x03 b0 b1 0x00 0x00 0x00 0x00
  | .decrh b0 b1 => packRequest 0x04 b0 b1 0x00 0x00 0x00 0x00
  | .meas b0 b1 b2 b3 b4 b5 => packRequest 0x05 b0 b1 b2 b3 b4 b5
  | .ser b0 b1 b2 b3 b4 b5 => packRequest 0x06 b0 b1 b2 b3 b4 b5

/-- One row of the opcode map of R52 as R53 gives it: the word its opcode must match under the mask. -/
def rowMatch : Instr → Request
  | .crc8 _ _ => 0x01000000000000
  | .chk _ _ _ => 0x02000000000000
  | .dect _ _ => 0x03000000000000
  | .decrh _ _ => 0x04000000000000
  | .meas _ _ _ _ _ _ => 0x05000000000000
  | .ser _ _ _ _ _ _ => 0x06000000000000

/-- The mask of every row (R53): the top 8 of 56 bits. -/
def rowMask : Request := 0xFF000000000000

/-- The request whose bits are `w`, of which the table gives `nbits`; every bit above them is 0. The table numbers the one
56-bit word from its least significant bit, as R51 does, so no bytes are reordered. Log entry 11. -/
def tableWord (nbits w : Nat) : Request := BitVec.ofNat 56 (w % 2 ^ nbits)

/-- What the decoder reads from the word `w` of the opcode table, `none` where it refuses. -/
def decodeTableWord (nbits w : Nat) : Option Instr :=
  match decode (tableWord nbits w) with
  | .ok i => some i
  | .error _ => none

end Sys2Proof
end

