-- ==== Sys2Proof/Config.lean ====
section
/-! DEFINITION. What is fixed for the block: the checksum parameters (00_scope.md R3), the decoder constants (R4), and the
free values, which the spec leaves open and which have no body. `LATENCY` (R6) is not here: it is an argument of the
cycle-level model (Machine/Ports.lean), as 92_eei_decisions.md says of a parameter marked OPEN. -/

namespace Sys2Proof

/-- `POLY` (R3): the generator polynomial without its leading term (40_checksum.md R70). -/
def Config.poly : Byte := 0x31

/-- `INIT` (R3). -/
def Config.init : Byte := 0xFF

/-- `REFIN` (R3): the bits of a byte are not reflected on input. -/
def Config.refIn : Bool := false

/-- `REFOUT` (R3): the result is not reflected. -/
def Config.refOut : Bool := false

/-- `XOROUT` (R3): there is no final xor. -/
def Config.xorOut : Byte := 0x00

/-- The temperature offset of R4. -/
def Config.tempOffset : Int := -49

/-- The temperature span of R4. -/
def Config.tempSpan : Int := 315

/-- The humidity offset of R4. -/
def Config.humOffset : Int := -6

/-- The humidity span of R4. -/
def Config.humSpan : Int := 125

/-- The divisor of R4, the largest raw value. -/
def Config.rawDivisor : Int := 65535

/-- The lower humidity bound of R4. -/
def Config.humLow : Int := 0

/-- The upper humidity bound of R4. -/
def Config.humHigh : Int := 100

/-- `2 ^ FRAC` with `FRAC` = 16 fraction bits (R6). -/
def Config.fracScale : Int := 65536

/-- FREE VALUE. What the port `crc` shows at a clock cycle in which `CRC` holds no value (93_implementation_defined.md U1:
"any value on the hardware port"); the argument is the number of the cycle. Log entry 7. -/
opaque Config.portCrc : Nat → Byte

/-- FREE VALUE. What the port `t` shows while `T` holds no value (U1). Log entry 7. -/
opaque Config.portT : Nat → Word32

/-- FREE VALUE. What the port `rh` shows while `RH` holds no value (U1). Log entry 7. -/
opaque Config.portRh : Nat → Word32

/-- FREE VALUE. What the port `sn` shows while `SN` holds no value (U1). Log entry 7. -/
opaque Config.portSn : Nat → Word32

/-- FREE VALUE. Whether the ports already show the new state at a clock cycle between the acceptance of a request and its
`resp_valid` (70_reset_and_hazards.md R157: "either the old or the new state, unspecified which"). Log entry 8. -/
opaque Config.showsNew : Nat → Bool

end Sys2Proof
end

