-- ==== Sys2Proof/Machine/State.lean ====
section
/-! DEFINITION. The state of the machine, as plain data: the record of 43_other_classes.md R126 (which collects 10_state.md
R25 to R29) and, beside it, the list of the host's coming moves, the model's own field. -/

namespace Sys2Proof.Machine

/-- The quantity a `ChecksumError` names (00_scope.md R11; 60_exceptions.md R132). -/
inductive Quantity where
  | serialHalf1
  | serialHalf2
  | temperature
  | humidity
  deriving DecidableEq, Repr

/-- The two errors the block raises (60_exceptions.md R130, R132, R134). -/
inductive OpError where
  | checksum (q : Quantity)
  | illegalOperation
  deriving DecidableEq, Repr

/-- The four result registers (10_state.md R25 to R28). -/
inductive ResultReg where
  | crc
  | t
  | rh
  | sn
  deriving DecidableEq, Repr

/-- What the host may do to the block (70_reset_and_hazards.md R155, 10_state.md R20). -/
inductive HostMove where
  /-- Present a request, any 56-bit word, which the block accepts and executes. -/
  | present (req : Request)
  /-- Assert `rst` (70_reset_and_hazards.md R150). -/
  | assertRst
  /-- Read STATUS at its port; reading has no effect (20_memory.md R47). -/
  | readStatus
  /-- Read and use a result register; its valid bit must be 1 (70_reset_and_hazards.md R155, R157). -/
  | readResult (r : ResultReg)
  deriving DecidableEq, Repr

/-- Why the machine stops with a fault. -/
inductive Fault where
  /-- The host used a result register that holds no value. Raised by `takeMove` on `HostMove.readResult`, never by an
  operation (60_exceptions.md R143, 92_eei_decisions.md D16, 93_implementation_defined.md U1: the model faults). SAFE: the
  hardware port shows unspecified bits there, and the model gives them no value. -/
  | readOfNoValue (r : ResultReg)
  deriving DecidableEq, Repr

/-- Why the machine refuses an instruction. -/
inductive Refusal where
  /-- The instruction has no meaning in the model yet. Raised by no arm: every operation has its meaning. SAFE. -/
  | notModelled (mnemonic : String)
  deriving DecidableEq, Repr

/-- The state. A result register is `none` when it "holds no value", a state of the spec's own (10_state.md section 3,
43_other_classes.md R126); its valid bit in STATUS is "is not `none`", so each is held once. -/
structure State where
  /-- `STATUS.ERR`: the last executed operation raised `ChecksumError` (R29). -/
  err : Bool
  /-- `STATUS.WHICH`: the code of the failing quantity, 0 when `ERR` is 0 (R29, R30). -/
  which : BitVec 2
  /-- `STATUS.ILL`: the last request carried an illegal opcode (R29). -/
  ill : Bool
  /-- `STATUS.MATCH`: the result of the last `CHK` (R29). -/
  matchBit : Bool
  /-- The register `CRC` (R25). -/
  crc : Option Byte
  /-- The register `T`, two's complement with 16 fraction bits (R26). -/
  t : Option Word32
  /-- The register `RH`, two's complement with 16 fraction bits (R27). -/
  rh : Option Word32
  /-- The register `SN` (R28). -/
  sn : Option Word32
  /-- THE MODEL'S OWN FIELD: the moves the host makes from here on, first move first (log entry 1). -/
  hostMoves : List HostMove
  deriving DecidableEq, Repr

/-- The state after reset (10_state.md R33, 43_other_classes.md R126): STATUS is 0 and no register holds a value. No move of
the host is waiting (log entry 1). -/
def State.reset : State where
  err := false
  which := 0
  ill := false
  matchBit := false
  crc := none
  t := none
  rh := none
  sn := none
  hostMoves := []

end Sys2Proof.Machine
end

