-- ==== Sys2Proof/Machine/Ops.lean ====
section
/-! DEFINITION. The named operations over the state: writing a result register, recording an outcome in STATUS, and raising
an error (60_exceptions.md R136), which stands here for taking an exception. There is no return from one: nothing is saved
and nothing is restored (R137). The block has no memory, so there is no operation over memory (20_memory.md R40). -/

namespace Sys2Proof.Machine

/-- Record an outcome: `ERR`, `WHICH` and `ILL` describe the last request only (10_state.md R31). -/
def State.setOutcome (s : State) (err : Bool) (which : BitVec 2) (ill : Bool) : State :=
  { s with err := err, which := which, ill := ill }

/-- Write `MATCH` (10_state.md R29). -/
def State.setMatch (s : State) (b : Bool) : State := { s with matchBit := b }

/-- `x[CRC] <- v`, which also makes `V_CRC` 1 (00_scope.md R9). -/
def State.writeCrc (s : State) (v : Byte) : State := { s with crc := some v }

/-- `x[T] <- v`, which also makes `V_T` 1 (00_scope.md R9). -/
def State.writeT (s : State) (v : Word32) : State := { s with t := some v }

/-- `x[RH] <- v`, which also makes `V_RH` 1 (00_scope.md R9). -/
def State.writeRh (s : State) (v : Word32) : State := { s with rh := some v }

/-- `x[SN] <- v`, which also makes `V_SN` 1 (00_scope.md R9). -/
def State.writeSn (s : State) (v : Word32) : State := { s with sn := some v }

/-- `x[T] <- none ; x[RH] <- none`, which also makes `V_T` and `V_RH` 0 (42_frame.md R111). -/
def State.invalidateMeasurement (s : State) : State := { s with t := none, rh := none }

/-- `x[SN] <- none`, which also makes `V_SN` 0 (42_frame.md R113). -/
def State.invalidateSerial (s : State) : State := { s with sn := none }

/-- Replace the list of the host's coming moves (the model's own field). -/
def State.setMoves (s : State) (moves : List HostMove) : State := { s with hostMoves := moves }

/-- A legal operation that completes without `ChecksumError` clears `ERR`, `WHICH` and `ILL` (10_state.md R31). -/
def State.succeed (s : State) : State := s.setOutcome false 0 false

/-- The code of a quantity in `WHICH`: the document's listing order (10_state.md R29, R30; 60_exceptions.md R132). -/
def Quantity.code : Quantity → BitVec 2
  | .serialHalf1 => 0
  | .serialHalf2 => 1
  | .temperature => 2
  | .humidity => 3

/-- The quantity a code of `WHICH` names. -/
def Quantity.ofCode (c : BitVec 2) : Quantity :=
  match c.toNat with
  | 0 => .serialHalf1
  | 1 => .serialHalf2
  | 2 => .temperature
  | _ => .humidity

/-- The registers an error leaves without a value: `T` and `RH` for a measurement frame, `SN` for a serial frame, none for an
illegal opcode (60_exceptions.md R136). -/
def State.invalidateFor (s : State) : OpError → State
  | .checksum .temperature => s.invalidateMeasurement
  | .checksum .humidity => s.invalidateMeasurement
  | .checksum .serialHalf1 => s.invalidateSerial
  | .checksum .serialHalf2 => s.invalidateSerial
  | .illegalOperation => s

/-- Raise an error: the whole effect is the writes of 60_exceptions.md R136. No control is transferred and nothing is saved. -/
def State.raise (s : State) : OpError → State
  | .checksum q => (s.invalidateFor (.checksum q)).setOutcome true q.code false
  | .illegalOperation => (s.invalidateFor .illegalOperation).setOutcome false 0 true

/-- The error a state reports, read from `ERR`, `WHICH` and `ILL` (60_exceptions.md R133, R134). -/
def State.reported (s : State) : Option OpError :=
  if s.ill then some .illegalOperation
  else if s.err then some (.checksum (Quantity.ofCode s.which))
  else none

/-- Assert `rst`: the block takes the reset state from every state (70_reset_and_hazards.md R150). The host's own later moves
are not state of the block and stay (log entry 3). -/
def State.assertRst (s : State) : State := State.reset.setMoves s.hostMoves

/-- Read a register that may hold no value: the value, or the fault that names the register (60_exceptions.md R143,
92_eei_decisions.md D16). -/
def valueOf (r : ResultReg) {α : Type} : Option α → Except Fault α
  | some v => .ok v
  | none => .error (.readOfNoValue r)

/-- The host reads `CRC` (00_scope.md R9: `x[CRC]` is defined only when it holds a value). -/
def State.readCrc (s : State) : Except Fault Byte := valueOf .crc s.crc

/-- The host reads `T`. -/
def State.readT (s : State) : Except Fault Word32 := valueOf .t s.t

/-- The host reads `RH`. -/
def State.readRh (s : State) : Except Fault Word32 := valueOf .rh s.rh

/-- The host reads `SN`. -/
def State.readSn (s : State) : Except Fault Word32 := valueOf .sn s.sn

end Sys2Proof.Machine
end

