-- ==== Sys2Proof/Machine/Operands.lean ====
section
/-! DEFINITION. How operand bytes are assembled (30_encoding.md R54, 20_memory.md R42): the one place where byte order is
decided. -/

namespace Sys2Proof.Machine

/-- A raw value: the lower-indexed byte is the more significant one; never sign-extended (20_memory.md R42). -/
def be16 (hi lo : Byte) : Raw := hi ++ lo

/-- The serial number `B0 ++ B1 ++ B3 ++ B4` (30_encoding.md R54, 42_frame.md R113). -/
def serialWord (b0 b1 b3 b4 : Byte) : Word32 := b0 ++ b1 ++ b3 ++ b4

end Sys2Proof.Machine
end

