-- ==== Sys2Proof/Machine/Decoder.lean ====
section
/-! DEFINITION. The decode family (41_decode.md): the exact rational values of the two formulas, the integer forms the registers
hold, and the operations `DECT` and `DECRH`. All arithmetic is over unbounded integers and rationals (43_other_classes.md R120,
R102); a result becomes 32 bits once, at the end. -/

namespace Sys2Proof.Machine

/-- `fdiv` of 00_scope.md R7: the quotient rounded toward minus infinity. -/
def fdiv (a b : Int) : Int := Int.fdiv a b

/-- `q16` (R90): the integer nearest to `65536 * v`, a half rounded up. -/
def q16 (v : Rat) : Int := ⌊v * (Config.fracScale : Rat) + 1 / 2⌋

/-- `q16 (n / 65535)` in integer arithmetic (R90). -/
def q16Num (n : Int) : Int := n + fdiv (2 * n + Config.rawDivisor) (2 * Config.rawDivisor)

/-- `temp_num` (R91): the numerator of the temperature over 65535. -/
def tempNum (raw : Raw) : Int := Config.tempSpan * raw.toNat + Config.tempOffset * Config.rawDivisor

/-- `temp_val` (R92): the exact temperature a raw value stands for. -/
def tempVal (raw : Raw) : Rat :=
  (Config.tempOffset : Rat) + (Config.tempSpan : Rat) * (raw.toNat : Rat) / (Config.rawDivisor : Rat)

/-- `temp_fx` (R93): the integer that `T` holds. -/
def tempFx (raw : Raw) : Int := q16Num (tempNum raw)

/-- `hum_num` (R96): the numerator of the humidity over 65535, before the clamp. -/
def humNum (raw : Raw) : Int := Config.humSpan * raw.toNat + Config.humOffset * Config.rawDivisor

/-- `hum_pre` (R97): the exact humidity before the clamp. -/
def humPre (raw : Raw) : Rat :=
  (Config.humOffset : Rat) + (Config.humSpan : Rat) * (raw.toNat : Rat) / (Config.rawDivisor : Rat)

/-- `clamp` of R98. -/
def clamp (v lo hi : Rat) : Rat := if v < lo then lo else if hi < v then hi else v

/-- `hum_val` (R98): the exact humidity, clamped. -/
def humVal (raw : Raw) : Rat := clamp (humPre raw) (Config.humLow : Rat) (Config.humHigh : Rat)

/-- `hum_fx` (R99): the integer that `RH` holds. -/
def humFx (raw : Raw) : Int :=
  let n := humNum raw
  if n ≤ Config.humLow * Config.rawDivisor then Config.humLow * Config.fracScale
  else if Config.humHigh * Config.rawDivisor ≤ n then Config.humHigh * Config.fracScale
  else q16Num n

/-- The bits of `T` for a raw value: `temp_fx mod 2^32` (43_other_classes.md R120). -/
def tempBits (raw : Raw) : Word32 := BitVec.ofInt 32 (tempFx raw)

/-- The bits of `RH` for a raw value: `hum_fx mod 2^32` (43_other_classes.md R120). -/
def humBits (raw : Raw) : Word32 := BitVec.ofInt 32 (humFx raw)

/-- `DECT` (R94): decode `b0 b1` to temperature into `T`; nothing is validated. -/
def execDect (b0 b1 : Byte) (s : State) : Host.Outcome State Fault Refusal :=
  .next (s.writeT (tempBits (be16 b0 b1))).succeed

/-- `DECRH` (R100): decode `b0 b1` to relative humidity into `RH`; nothing is validated and a clamp is not reported. -/
def execDecrh (b0 b1 : Byte) (s : State) : Host.Outcome State Fault Refusal :=
  .next (s.writeRh (humBits (be16 b0 b1))).succeed

end Sys2Proof.Machine
end

