-- ==== Sys2Proof/Machine/Frame.lean ====
section
/-! DEFINITION. The frame family (42_frame.md): `MEAS` and `SER`, one order of checks and two meanings of the fields. -/

namespace Sys2Proof.Machine

/-- The first failing quantity of a frame, its first field being named `q1` and its second `q2` (60_exceptions.md R132, R135). -/
def firstFailing (q1 q2 : Quantity) (b0 b1 b2 b3 b4 b5 : Byte) : Option Quantity :=
  if fieldOk b0 b1 b2 then (if fieldOk b3 b4 b5 then none else some q2) else some q1

/-- `MEAS` (R111): validate temperature, then humidity; decode both, or raise `ChecksumError` naming the first that failed. -/
def execMeas (b0 b1 b2 b3 b4 b5 : Byte) (s : State) : Host.Outcome State Fault Refusal :=
  match firstFailing .temperature .humidity b0 b1 b2 b3 b4 b5 with
  | some q => .next (s.raise (.checksum q))
  | none => .next ((s.writeT (tempBits (be16 b0 b1))).writeRh (humBits (be16 b3 b4))).succeed

/-- `SER` (R113): validate both halves; assemble the serial number, or raise `ChecksumError` naming the first half that failed. -/
def execSer (b0 b1 b2 b3 b4 b5 : Byte) (s : State) : Host.Outcome State Fault Refusal :=
  match firstFailing .serialHalf1 .serialHalf2 b0 b1 b2 b3 b4 b5 with
  | some q => .next (s.raise (.checksum q))
  | none => .next (s.writeSn (serialWord b0 b1 b3 b4)).succeed

end Sys2Proof.Machine
end

