-- ==== Sys2Proof/Machine/Dispatch.lean ====
section
/-! DEFINITION. One arm per operation of the opcode map (30_encoding.md R52), each a direct call of its meaning. -/

namespace Sys2Proof.Machine

/-- Execute one operation. -/
def exec (i : Instr) (s : State) : Host.Outcome State Fault Refusal :=
  match i with
  | .crc8 b0 b1 => Sys2Proof.Machine.execCrc8 b0 b1 s
  | .chk b0 b1 b2 => Sys2Proof.Machine.execChk b0 b1 b2 s
  | .dect b0 b1 => Sys2Proof.Machine.execDect b0 b1 s
  | .decrh b0 b1 => Sys2Proof.Machine.execDecrh b0 b1 s
  | .meas b0 b1 b2 b3 b4 b5 => Sys2Proof.Machine.execMeas b0 b1 b2 b3 b4 b5 s
  | .ser b0 b1 b2 b3 b4 b5 => Sys2Proof.Machine.execSer b0 b1 b2 b3 b4 b5 s

end Sys2Proof.Machine
end

