-- ==== Sys2Proof/Machine/Flags.lean ====
section
/-! DEFINITION. STATUS as software sees it: one 16-bit word (10_state.md R29), and the valid bits. -/

namespace Sys2Proof.Machine

/-- The valid bit of a result register: 1 when it holds a value (10_state.md R29, 43_other_classes.md R126). -/
def State.valid (s : State) : ResultReg → Bool
  | .crc => s.crc.isSome
  | .t => s.t.isSome
  | .rh => s.rh.isSome
  | .sn => s.sn.isSome

/-- The register STATUS, most significant bit first: `0000 V_SN V_RH V_T V_CRC 000 MATCH ILL WHICH ERR` (R29, R32). -/
def State.statusWord (s : State) : BitVec 16 :=
  0#4 ++ BitVec.ofBool (s.valid .sn) ++ BitVec.ofBool (s.valid .rh) ++ BitVec.ofBool (s.valid .t)
    ++ BitVec.ofBool (s.valid .crc) ++ 0#3 ++ BitVec.ofBool s.matchBit ++ BitVec.ofBool s.ill ++ s.which
    ++ BitVec.ofBool s.err

end Sys2Proof.Machine
end

