-- ==== Sys2Proof/Machine/Accept.lean ====
section
/-! DEFINITION. What the block does with a request it accepts, legal or not, and what one move of the host does to the
machine. -/

namespace Sys2Proof.Machine

/-- Accept a request (30_encoding.md R53, R57): a legal one is executed, an illegal one raises `IllegalOperation`
(60_exceptions.md R134). Every 56-bit word is one or the other. -/
def acceptRequest (r : Request) (s : State) : Host.Outcome State Fault Refusal :=
  match decode r with
  | .ok i => exec i s
  | .error (.illegalOpcode _) => .next (s.raise .illegalOperation)

/-- The state after a request. A request is never refused and never faults (60_exceptions.md R130), so the last two arms are
never taken; `acceptRequest_eq` in Laws/Machine.lean says so. -/
def afterRequest (r : Request) (s : State) : State :=
  match acceptRequest r s with
  | .next t => t
  | .fault _ => s
  | .refused _ => s

/-- The state after a list of requests, one step each, in order: `run` of 43_other_classes.md R126 from any state (20_memory.md
R48, 70_reset_and_hazards.md R162). -/
def afterRequests (rs : List Request) (s : State) : State := rs.foldl (fun u r => afterRequest r u) s

/-- One move of the host (70_reset_and_hazards.md R155). Reading has no effect; the read of a register that holds no value is a
fault, as 60_exceptions.md R143 and 92_eei_decisions.md D16 say ("in the model the read faults. Never a value, never zero"). -/
def takeMove (m : HostMove) (s : State) : Host.Outcome State Fault Refusal :=
  match m with
  | .present r => acceptRequest r s
  | .assertRst => .next s.assertRst
  | .readStatus => .next s
  | .readResult r => if s.valid r then .next s else .fault (.readOfNoValue r)

/-- One step: the host's next move, taken off the list; with no move waiting the block does nothing and keeps its state
(60_exceptions.md R142). -/
def advance (s : State) : Host.Outcome State Fault Refusal :=
  match s.hostMoves with
  | [] => .next s
  | m :: later => takeMove m (s.setMoves later)

/-- Put a request in front of the host's moves, so that the next step accepts it (log entry 2). -/
def State.presentNext (s : State) (r : Request) : State := s.setMoves (.present r :: s.hostMoves)

end Sys2Proof.Machine
end

