-- ==== Sys2Proof/Machine/Step.lean ====
section
/-! DEFINITION. The step of the machine. The block fetches nothing (10_state.md R21): the host presents each request, and a
step is the host's next move. -/

namespace Sys2Proof.Machine

/-- One step: the host's next move. -/
def step (s : State) : Host.Outcome State Fault Refusal := advance s

/-- `s` with the request of an opcode-table word as the host's next move. -/
def State.withFetchWord (s : State) (nbits w : Nat) : State := s.presentNext (tableWord nbits w)

end Sys2Proof.Machine
end

