-- ==== Sys2Proof/WellFormed.lean ====
section
/-! DEFINITION. Well-formedness. The operands of an `Instr` are bytes by their type, so every `Instr` is well formed and
nothing is left to check of it. What can be ill formed is a SOURCE LINE, a mnemonic with a list of operand literals:
30_encoding.md R59 names the three ways, each a check of its own here. -/

namespace Sys2Proof

/-- The mnemonics of R58 and the pseudo-operations of R60. -/
inductive Mnemonic where
  | crc8 | chk | dect | decrh | meas | ser
  /-- Pseudo-operation `TEMP` (R60, R115). -/
  | temp
  /-- Pseudo-operation `RHUM` (R60, R116). -/
  | rhum
  deriving DecidableEq, Repr

/-- Every mnemonic, in the order of R58 and R60. -/
def Mnemonic.all : List Mnemonic := [.crc8, .chk, .dect, .decrh, .meas, .ser, .temp, .rhum]

/-- A mnemonic as it is written, in capitals (R58). -/
def Mnemonic.name : Mnemonic → List Char
  | .crc8 => ['C', 'R', 'C', '8']
  | .chk => ['C', 'H', 'K']
  | .dect => ['D', 'E', 'C', 'T']
  | .decrh => ['D', 'E', 'C', 'R', 'H']
  | .meas => ['M', 'E', 'A', 'S']
  | .ser => ['S', 'E', 'R']
  | .temp => ['T', 'E', 'M', 'P']
  | .rhum => ['R', 'H', 'U', 'M']

/-- How many operand bytes a line with this mnemonic has (R58, R60). -/
def Mnemonic.arity : Mnemonic → Nat
  | .crc8 => 2
  | .chk => 3
  | .dect => 2
  | .decrh => 2
  | .meas => 6
  | .ser => 6
  | .temp => 6
  | .rhum => 6

/-- The mnemonic a word spells, if any. -/
def Mnemonic.find (word : List Char) : Option Mnemonic :=
  Mnemonic.all.find? (fun m => m.name == word)

/-- One line of assembler source after its literals have been read: the word in mnemonic position and the operand
values, which may be anything (R58, R59). -/
structure SourceLine where
  word : List Char
  operands : List Nat
  deriving DecidableEq, Repr

/-- The word is a known mnemonic (R59: not "an unknown mnemonic"). -/
def SourceLine.mnemonicKnown (l : SourceLine) : Bool := (Mnemonic.find l.word).isSome

/-- The line has as many operand bytes as its mnemonic takes (R59: not "the wrong number of operand bytes"). -/
def SourceLine.countRight (l : SourceLine) : Bool :=
  match Mnemonic.find l.word with
  | some m => l.operands.length == m.arity
  | none => false

/-- Every operand lies in 0 to 255 (R59: not "a byte outside `0` to `255`"). -/
def SourceLine.bytesInRange (l : SourceLine) : Bool := l.operands.all (fun v => decide (v < 256))

/-- A line for which R59 names no assembly error. -/
def SourceLine.wf (l : SourceLine) : Bool := l.mnemonicKnown && l.countRight && l.bytesInRange

/-- Every operation is well formed: its operands are bytes by their type (30_encoding.md R55, R58). -/
def Instr.wf : Instr → Bool
  | .crc8 _ _ => true
  | .chk _ _ _ => true
  | .dect _ _ => true
  | .decrh _ _ => true
  | .meas _ _ _ _ _ _ => true
  | .ser _ _ _ _ _ _ => true

end Sys2Proof
end

