-- ==== Sys2Proof/Machine/Assembler.lean ====
section
/-! DEFINITION. The assembler and the disassembler (30_encoding.md R58 to R60), over lists of characters. What the rules leave
open of the text (white space, the case of hexadecimal digits, empty lines) is in log entries 12 and 13. -/

namespace Sys2Proof.Machine

/-- The assembly errors: the three of R59, and `badLiteral`, an operand that is no literal of R58 at all. R58 and R59 name no
error for the last; the name, and that it comes before the other three, are the model's (DESIGN CHOICE, log entry 12). -/
inductive AsmError where
  | unknownMnemonic
  | wrongOperandCount
  | byteOutOfRange
  | badLiteral
  deriving DecidableEq, Repr

/-- The value of a decimal digit. -/
def decimalDigit (c : Char) : Option Nat :=
  if '0'.toNat ≤ c.toNat ∧ c.toNat ≤ '9'.toNat then some (c.toNat - '0'.toNat) else none

/-- The value of a hexadecimal digit, in either case (log entry 12). -/
def hexDigit (c : Char) : Option Nat :=
  if '0'.toNat ≤ c.toNat ∧ c.toNat ≤ '9'.toNat then some (c.toNat - '0'.toNat)
  else if 'A'.toNat ≤ c.toNat ∧ c.toNat ≤ 'F'.toNat then some (c.toNat - 'A'.toNat + 10)
  else if 'a'.toNat ≤ c.toNat ∧ c.toNat ≤ 'f'.toNat then some (c.toNat - 'a'.toNat + 10)
  else none

/-- Read digits, most significant first, onto the value read so far. -/
def readDigits (base : Nat) (digit : Char → Option Nat) : Nat → List Char → Option Nat
  | acc, [] => some acc
  | acc, c :: cs =>
    match digit c with
    | some d => readDigits base digit (acc * base + d) cs
    | none => none

/-- A literal: hexadecimal with `0x`, or decimal (R58); at least one digit. -/
def readLiteral : List Char → Option Nat
  | '0' :: 'x' :: c :: cs => readDigits 16 hexDigit 0 (c :: cs)
  | c :: cs => readDigits 10 decimalDigit 0 (c :: cs)
  | [] => none

/-- A space or a tab (log entry 12). -/
def isBlank (c : Char) : Bool := c == ' ' || c == '\t'

/-- Drop blanks at both ends. -/
def trimBlanks (cs : List Char) : List Char := ((cs.dropWhile isBlank).reverse.dropWhile isBlank).reverse

/-- Drop a comment: everything from the first `;` on (R58). -/
def dropComment (cs : List Char) : List Char := cs.takeWhile (fun c => c != ';')

/-- The parts between commas (R58). -/
def splitCommas : List Char → List (List Char)
  | [] => [[]]
  | c :: cs =>
    match splitCommas cs with
    | [] => [[c]]
    | p :: ps => if c == ',' then [] :: p :: ps else (c :: p) :: ps

/-- Read every part as a literal. -/
def readAll : List (List Char) → Option (List Nat)
  | [] => some []
  | p :: ps =>
    match readLiteral (trimBlanks p), readAll ps with
    | some v, some vs => some (v :: vs)
    | _, _ => none

/-- Read one line of text (R58): nothing for a line with no code, else the word and the operand values. DESIGN CHOICE, log
entry 12: a line with an operand that is no literal is `badLiteral`, before its mnemonic and its count are looked at; the spec
is silent on which error such a line has when its mnemonic is unknown or its count wrong too. -/
def parseLine (line : List Char) : Except AsmError (Option SourceLine) :=
  let body := trimBlanks (dropComment line)
  if body.isEmpty then .ok none
  else
    let word := body.takeWhile (fun c => !isBlank c)
    let rest := trimBlanks (body.dropWhile (fun c => !isBlank c))
    if rest.isEmpty then .ok (some { word := word, operands := [] })
    else
      match readAll (splitCommas rest) with
      | some vs => .ok (some { word := word, operands := vs })
      | none => .error .badLiteral

/-- The operation a mnemonic and its operand bytes stand for; the pseudo-operations stand for `MEAS` (R58, R60). -/
def buildInstr : Mnemonic → List Byte → Option Instr
  | .crc8, [b0, b1] => some (.crc8 b0 b1)
  | .chk, [b0, b1, b2] => some (.chk b0 b1 b2)
  | .dect, [b0, b1] => some (.dect b0 b1)
  | .decrh, [b0, b1] => some (.decrh b0 b1)
  | .meas, [b0, b1, b2, b3, b4, b5] => some (.meas b0 b1 b2 b3 b4 b5)
  | .ser, [b0, b1, b2, b3, b4, b5] => some (.ser b0 b1 b2 b3 b4 b5)
  | .temp, [b0, b1, b2, b3, b4, b5] => some (.meas b0 b1 b2 b3 b4 b5)
  | .rhum, [b0, b1, b2, b3, b4, b5] => some (.meas b0 b1 b2 b3 b4 b5)
  | _, _ => none

/-- Assemble a source line (R58 to R60): its canonical request, or the assembly error of R59. Which error is named when several
apply is the model's (DESIGN CHOICE, log entry 12). -/
def assembleSource (l : SourceLine) : Except AsmError Request :=
  match Mnemonic.find l.word with
  | none => .error .unknownMnemonic
  | some m =>
    match buildInstr m (l.operands.map (fun v => BitVec.ofNat 8 v)) with
    | none => .error .wrongOperandCount
    | some i => if l.bytesInRange then .ok (encode i) else .error .byteOutOfRange

/-- Assemble one line of text: no request for a line with no code, one request otherwise, or an error and no request (R59). -/
def assembleLine (line : List Char) : Except AsmError (Option Request) :=
  match parseLine line with
  | .error e => .error e
  | .ok none => .ok none
  | .ok (some l) =>
    match assembleSource l with
    | .error e => .error e
    | .ok r => .ok (some r)

/-- Assemble a program: one line after another, top to bottom (R58); a line in error emits nothing (R59). -/
def assembleProgram : List (List Char) → List (Except AsmError Request)
  | [] => []
  | line :: lines =>
    match assembleLine line with
    | .ok none => assembleProgram lines
    | .ok (some r) => .ok r :: assembleProgram lines
    | .error e => .error e :: assembleProgram lines

/-- The mnemonic of an operation (R52). -/
def instrMnemonic : Instr → Mnemonic
  | .crc8 _ _ => .crc8
  | .chk _ _ _ => .chk
  | .dect _ _ => .dect
  | .decrh _ _ => .decrh
  | .meas _ _ _ _ _ _ => .meas
  | .ser _ _ _ _ _ _ => .ser

/-- The operand bytes an operation reads (20_memory.md R43). -/
def instrOperands : Instr → List Byte
  | .crc8 b0 b1 => [b0, b1]
  | .chk b0 b1 b2 => [b0, b1, b2]
  | .dect b0 b1 => [b0, b1]
  | .decrh b0 b1 => [b0, b1]
  | .meas b0 b1 b2 b3 b4 b5 => [b0, b1, b2, b3, b4, b5]
  | .ser b0 b1 b2 b3 b4 b5 => [b0, b1, b2, b3, b4, b5]

/-- The digit of a number below 16 as a capital hexadecimal digit. -/
def hexChar (n : Nat) : Char :=
  ['0', '1', '2', '3', '4', '5', '6', '7', '8', '9', 'A', 'B', 'C', 'D', 'E', 'F'].getD n '0'

/-- The two hexadecimal digits of a byte. -/
def hexPair (b : Byte) : List Char := [hexChar (b.toNat / 16), hexChar (b.toNat % 16)]

/-- A byte as a literal (log entry 13). -/
def byteText (b : Byte) : List Char := '0' :: 'x' :: hexPair b

/-- Operands separated by a comma and a space (log entry 13). -/
def operandsText : List Byte → List Char
  | [] => []
  | [b] => byteText b
  | b :: bs => byteText b ++ [',', ' '] ++ operandsText bs

/-- A legal operation as text: its mnemonic and exactly the bytes it reads (R59). -/
def instrText (i : Instr) : List Char := (instrMnemonic i).name ++ [' '] ++ operandsText (instrOperands i)

/-- An illegal request as text: `.req 0x` and its 14 hexadecimal digits (R59). It is the disassembler's text only: that no line
of the assembler is so written is the model's reading (DESIGN CHOICE, log entry 12). -/
def illegalText (r : Request) : List Char :=
  ['.', 'r', 'e', 'q', ' ', '0', 'x'] ++ hexPair (reqOp r) ++ hexPair (reqB0 r) ++ hexPair (reqB1 r)
    ++ hexPair (reqB2 r) ++ hexPair (reqB3 r) ++ hexPair (reqB4 r) ++ hexPair (reqB5 r)

/-- The disassembler (R59). -/
def disassemble (r : Request) : List Char :=
  match decode r with
  | .ok i => instrText i
  | .error (.illegalOpcode _) => illegalText r

end Sys2Proof.Machine
end

