-- ==== Sys2Proof/Machine/Ports.lean ====
section
/-! DEFINITION. The block at its ports, one clock cycle at a time (30_encoding.md R50). The machine's `step` has no clock (R50,
70_reset_and_hazards.md R160); this file says what the handshake, `LATENCY` and `rst` do around it. `LATENCY` is an argument
(00_scope.md R6, 92_eei_decisions.md D20), at least 1. Every value of a port that the spec leaves open is a free value. -/

namespace Sys2Proof.Machine

/-- The input ports at one rising edge of `clk` (R50). -/
structure Inputs where
  rst : Bool
  reqValid : Bool
  req : Request
  deriving DecidableEq, Repr

/-- The output ports in one clock cycle (R50). -/
structure Outputs where
  reqReady : Bool
  respValid : Bool
  status : BitVec 16
  crc : Byte
  t : Word32
  rh : Word32
  sn : Word32
  deriving DecidableEq, Repr

/-- A request that has been accepted and is not yet complete: the block is busy (10_state.md R34). -/
structure InFlight where
  req : Request
  /-- Clock edges still to come before its results are visible, at least 1. -/
  left : Nat
  deriving DecidableEq, Repr

/-- The block at the cycle level: the state of the machine, whether it is busy, `resp_valid`, and a count of the cycles, which
is the model's own and only indexes the free values of the ports (log entry 7). -/
structure Block where
  core : State
  inFlight : Option InFlight
  respValid : Bool
  cycles : Nat
  deriving DecidableEq, Repr

/-- `req_ready`: the block can accept a request when it is not busy (R50, 10_state.md R34). -/
def Block.ready (b : Block) : Bool := b.inFlight.isNone

/-- A request is accepted where `req_valid` and `req_ready` are 1 and `rst` is 0 (R50). -/
def Block.accepts (b : Block) (i : Inputs) : Bool := i.reqValid && b.ready && !i.rst

/-- The request completes: its results appear together (20_memory.md R47) and `resp_valid` is 1 (R50). -/
def Block.complete (b : Block) (r : Request) : Block where
  core := afterRequest r b.core
  inFlight := none
  respValid := true
  cycles := b.cycles + 1

/-- The request `r` has `left` edges to go: it completes at the last of them, otherwise the block stays busy. -/
def Block.countdown (b : Block) (r : Request) (left : Nat) : Block :=
  if left = 0 then b.complete r
  else { b with inFlight := some { req := r, left := left }, respValid := false, cycles := b.cycles + 1 }

/-- One rising edge of `clk`. Reset wins, abandons a request in progress without any of its writes and gives no `resp_valid`
for it (70_reset_and_hazards.md R150); an accepted request shows its results `latency` cycles later (R50). -/
def Block.cycle (latency : Nat) (i : Inputs) (b : Block) : Block :=
  if i.rst then { core := b.core.assertRst, inFlight := none, respValid := false, cycles := b.cycles + 1 }
  else
    match b.inFlight with
    | some p => b.countdown p.req (p.left - 1)
    | none => if b.accepts i then b.countdown i.req (latency - 1)
        else { b with respValid := false, cycles := b.cycles + 1 }

/-- Several rising edges, one after another. -/
def Block.cyclesWith (latency : Nat) (is : List Inputs) (b : Block) : Block :=
  is.foldl (fun c i => c.cycle latency i) b

/-- The state the ports show: between acceptance and `resp_valid` either the old or the new one, unspecified which, the whole
of it (70_reset_and_hazards.md R157, 20_memory.md R47). -/
def Block.shown (b : Block) : State :=
  match b.inFlight with
  | none => b.core
  | some p => if Config.showsNew b.cycles then afterRequest p.req b.core else b.core

/-- The output ports (R50). A register that holds no value shows unspecified bits (93_implementation_defined.md U1). -/
def Block.outputs (b : Block) : Outputs where
  reqReady := b.ready
  respValid := b.respValid
  status := b.shown.statusWord
  crc := b.shown.crc.getD (Config.portCrc b.cycles)
  t := b.shown.t.getD (Config.portT b.cycles)
  rh := b.shown.rh.getD (Config.portRh b.cycles)
  sn := b.shown.sn.getD (Config.portSn b.cycles)

end Sys2Proof.Machine
end

