-- ==== Sys2Proof/Machine/Reference.lean ====
section
/-! DEFINITION. Second readings of the spec, which the statements compare the machine with and which the machine does not
call: the whole step in one place and the STATUS formula (43_other_classes.md R126), the checksum bit by bit from its parameter
list and as a remainder of polynomials (00_scope.md R3, 40_checksum.md R70; log entry 15), a field as one 24-bit word (R79), and the document's formulas in IEEE 754 binary64 (41_decode.md R95, R101). -/

namespace Sys2Proof.Machine

/-- `step(s, req)` of R126, written from its text. -/
def refStep (s : State) (req : Request) : State :=
  let op := (req >>> 48).setWidth 8
  let b0 := (req >>> 40).setWidth 8
  let b1 := (req >>> 32).setWidth 8
  let b2 := (req >>> 24).setWidth 8
  let b3 := (req >>> 16).setWidth 8
  let b4 := (req >>> 8).setWidth 8
  let b5 := req.setWidth 8
  let ok1 := crc8 b0 b1 == b2
  let ok2 := crc8 b3 b4 == b5
  let raw1 := BitVec.ofNat 16 (b0.toNat * 256 + b1.toNat)
  let raw2 := BitVec.ofNat 16 (b3.toNat * 256 + b4.toNat)
  if op = 0x01 then { s with err := false, which := 0, ill := false, crc := some (crc8 b0 b1) }
  else if op = 0x02 then { s with err := false, which := 0, ill := false, matchBit := ok1 }
  else if op = 0x03 then { s with err := false, which := 0, ill := false, t := some (tempBits raw1) }
  else if op = 0x04 then { s with err := false, which := 0, ill := false, rh := some (humBits raw1) }
  else if op = 0x05 then
    if !ok1 then { s with err := true, which := 2, ill := false, t := none, rh := none }
    else if !ok2 then { s with err := true, which := 3, ill := false, t := none, rh := none }
    else { s with err := false, which := 0, ill := false, t := some (tempBits raw1), rh := some (humBits raw2) }
  else if op = 0x06 then
    if !ok1 then { s with err := true, which := 0, ill := false, sn := none }
    else if !ok2 then { s with err := true, which := 1, ill := false, sn := none }
    else { s with
      err := false, which := 0, ill := false,
      sn := some (b0.setWidth 32 <<< 24 ||| b1.setWidth 32 <<< 16 ||| b3.setWidth 32 <<< 8 ||| b4.setWidth 32) }
  else { s with err := false, which := 0, ill := true }

/-- A bit as a number. -/
def bitNat (b : Bool) : Nat := if b then 1 else 0

/-- `STATUS(s)` of R126 as a number: the fields at their weights. -/
def refStatus (s : State) : Nat :=
  bitNat s.err + 2 * s.which.toNat + 8 * bitNat s.ill + 16 * bitNat s.matchBit + 256 * bitNat s.crc.isSome
    + 512 * bitNat s.t.isSome + 1024 * bitNat s.rh.isSome + 2048 * bitNat s.sn.isSome

/-- The error a request raises, if any, from the request word alone: the conditions of 60_exceptions.md R132 and R134 in the
order of R135. -/
def refError (r : Request) : Option OpError :=
  if reqOp r ∉ legalOps then some .illegalOperation
  else if reqOp r = 0x05 then
    if crc8 (reqB0 r) (reqB1 r) ≠ reqB2 r then some (.checksum .temperature)
    else if crc8 (reqB3 r) (reqB4 r) ≠ reqB5 r then some (.checksum .humidity)
    else none
  else if reqOp r = 0x06 then
    if crc8 (reqB0 r) (reqB1 r) ≠ reqB2 r then some (.checksum .serialHalf1)
    else if crc8 (reqB3 r) (reqB4 r) ≠ reqB5 r then some (.checksum .serialHalf2)
    else none
  else none

/-- The bits of a byte in the order they enter: most significant first unless the input is reflected (R70). -/
def inputBits (refIn : Bool) (b : Byte) : List Bool :=
  let msbFirst := (List.range 8).map (fun k => b.getLsbD (7 - k))
  if refIn then msbFirst.reverse else msbFirst

/-- One message bit through the 8-bit register: shift, and xor the polynomial when the bit shifted out differs from it. -/
def serialBit (poly c : Byte) (b : Bool) : Byte := if c.getLsbD 7 != b then (c <<< 1) ^^^ poly else c <<< 1

/-- The checksum of a message from the parameter list of R3, one bit at a time (log entry 15). -/
def paramChecksum (poly init : Byte) (refIn refOut : Bool) (xorOut : Byte) (message : List Byte) : Byte :=
  let c := (message.flatMap (inputBits refIn)).foldl (serialBit poly) init
  (if refOut then c.reverse else c) ^^^ xorOut

/-- Long division of a polynomial over the two-element field, held as bits, by the full polynomial `0x131` of R70: `n`
steps, from the bit `n + 7` down to bit 8, each cancelling its bit if it is set. -/
def polyRem : Nat → BitVec 24 → BitVec 24
  | 0, p => p
  | n + 1, p => polyRem n (if p.getLsbD (n + 8) then p ^^^ ((0x131 : BitVec 24) <<< n) else p)

/-- The payload as a polynomial, its first byte xored with `INIT`, times `x^8` (R70). -/
def payloadPoly (d0 d1 : Byte) : BitVec 24 := (d0 ^^^ 0xFF) ++ d1 ++ (0 : Byte)

/-- A field as one word: `d0` in bits 23:16, `d1` in bits 15:8, the checksum byte in bits 7:0 (95_test_vectors.md section 2.2). -/
def fieldWord (d0 d1 c : Byte) : BitVec 24 := d0 ++ d1 ++ c

/-- The field in a word is valid (R75). -/
def fieldWordOk (w : BitVec 24) : Bool := fieldOk (w.extractLsb' 16 8) (w.extractLsb' 8 8) (w.extractLsb' 0 8)

/-- The number of bits a pattern flips (R79). -/
def flips (e : BitVec 24) : Nat := (List.range 24).countP (fun k => e.getLsbD k)

/-- The bits of a request that an operation takes part in or reads: the opcode and the operand bytes of 20_memory.md R43. -/
def readMask : Instr → Request
  | .crc8 _ _ => 0xFFFFFF00000000
  | .chk _ _ _ => 0xFFFFFFFF000000
  | .dect _ _ => 0xFFFFFF00000000
  | .decrh _ _ => 0xFFFFFF00000000
  | .meas _ _ _ _ _ _ => 0xFFFFFFFFFFFFFF
  | .ser _ _ _ _ _ _ => 0xFFFFFFFFFFFFFF

/-- The nearest integer, a tie to the even one (IEEE 754 round to nearest). -/
def roundHalfEven (x : Rat) : Int :=
  let f := ⌊x⌋
  if x - f < 1 / 2 then f
  else if 1 / 2 < x - f then f + 1
  else if f % 2 = 0 then f else f + 1

/-- The exponent of the last place of a non-zero `x` in binary64: `2^52 ≤ |x| / 2^ulpExp < 2^53`. -/
def ulpExp (x : Rat) : Int :=
  let k : Int := (Nat.log2 x.num.natAbs : Int) - (Nat.log2 x.den : Int)
  if |x| < (2 : Rat) ^ k then k - 53 else k - 52

/-- `x` rounded to binary64, for the values that occur here: 0 and numbers in the normal range (log entry 14). -/
def round64 (x : Rat) : Rat :=
  if x = 0 then 0 else (roundHalfEven (x / (2 : Rat) ^ ulpExp x) : Rat) * (2 : Rat) ^ ulpExp x

/-- The document's `-49.0 + 315.0 * rawTemp / 65535.0` in binary64, left to right (R95). -/
def temp64 (raw : Raw) : Rat := round64 (-49 + round64 (round64 (315 * (raw.toNat : Rat)) / 65535))

/-- The document's humidity expression in binary64, left to right and then clamped (R101). -/
def hum64 (raw : Raw) : Rat := clamp (round64 (-6 + round64 (round64 (125 * (raw.toNat : Rat)) / 65535))) 0 100

end Sys2Proof.Machine
end

