-- ==== Sys2Proof/Machine/Wrappers.lean ====
section
/-! DEFINITION. The pseudo-operations `TEMP` and `RHUM` (30_encoding.md R60, 42_frame.md R115, R116): one `MEAS` request, after
which the host reads one register alone, when `ERR` is 0. -/

namespace Sys2Proof.Machine

/-- What a wrapper can give its caller instead of a value. -/
inductive WrapperError where
  /-- `MEAS` raised `ChecksumError` for this quantity (60_exceptions.md R132). -/
  | checksum (q : Quantity)
  /-- The register read holds no value; no wrapper ever gives this after its own `MEAS`. -/
  | noValue (f : Fault)
  deriving DecidableEq, Repr

/-- The host reads STATUS and, when `ERR` is 0, one register. -/
def hostReads (s : State) (value : Except Fault Word32) : Except WrapperError Word32 :=
  if s.err then .error (.checksum (Quantity.ofCode s.which))
  else match value with
    | .ok v => .ok v
    | .error f => .error (.noValue f)

/-- `TEMP` (R115): the request `MEAS`, then `T` alone. -/
def pseudoTemp (b0 b1 b2 b3 b4 b5 : Byte) (s : State) : Except WrapperError Word32 :=
  let u := afterRequest (encode (.meas b0 b1 b2 b3 b4 b5)) s
  hostReads u u.readT

/-- `RHUM` (R116): the request `MEAS`, then `RH` alone. -/
def pseudoRhum (b0 b1 b2 b3 b4 b5 : Byte) (s : State) : Except WrapperError Word32 :=
  let u := afterRequest (encode (.meas b0 b1 b2 b3 b4 b5)) s
  hostReads u u.readRh

end Sys2Proof.Machine
end

