-- ==== Sys2Proof/Safety.lean ====
section
/-! DEFINITION. What counts as a good state and a safe run, in the terms the statements use. -/

namespace Sys2Proof.Machine

/-- The state invariant, from 10_state.md: `WHICH` is 0 when `ERR` is 0 (R29); an illegal request is no `ChecksumError`
(R31); the values `T` and `RH` can ever hold (R26, R27); and after a `ChecksumError` the registers of the failing frame hold
no value (60_exceptions.md R136). It holds at reset and every step keeps it. -/
structure State.Inv (s : State) : Prop where
  which_zero : s.err = false → s.which = 0
  ill_excludes_err : s.ill = true → s.err = false
  t_range : ∀ v, s.t = some v → -3211264 ≤ v.toInt ∧ v.toInt ≤ 17432576
  rh_range : ∀ v, s.rh = some v → 0 ≤ v.toInt ∧ v.toInt ≤ 6553600
  measurement_failed : s.err = true → (s.which = 2 ∨ s.which = 3) → s.t = none ∧ s.rh = none
  serial_failed : s.err = true → (s.which = 0 ∨ s.which = 1) → s.sn = none

/-- The host keeps its contract at its next move (70_reset_and_hazards.md R155, R157): it does not use a result register
whose valid bit is 0. -/
def State.hostKeepsContract (s : State) : Bool :=
  match s.hostMoves with
  | .readResult r :: _ => s.valid r
  | _ => true

/-- The next step does not stop the machine. -/
def State.StepsOn (s : State) : Prop := ∃ t, step s = .next t

end Sys2Proof.Machine
end

