-- ==== Sys2Proof/Certificates/Slice0/Obligations.lean ====
section
/-! DEFINITION. The statements for the provers. Each docstring says which rule of spec/ the statement formalises, or the sections
it is derived from. A result statement gives the WHOLE next state, so it is the completion statement and the frame of its
operation as well: every field it does not name is unchanged. -/

open Sys2Proof Sys2Proof.Machine

/-! ### Encoding -/

/-- Tier 3. Decoding the canonical encoding of any operation gives it back, every operand at every value (30_encoding.md
sections 2, 3 and 6). -/
def Obligations.DecodeOfEncode : Prop := ∀ i : Instr, decode (encode i) = .ok i

/-- Encoding what was decoded gives the word back with the bytes the operation does not read set to zero; a word that decodes
to nothing has an illegal opcode (30_encoding.md section 6, the last sentence of the disassembler's rule). -/
def Obligations.EncodeOfDecode : Prop :=
  ∀ r : Request,
    match decode r with
    | .ok i => encode i = r &&& readMask i
    | .error (.illegalOpcode op) => op = reqOp r ∧ op ∉ legalOps

/-- R53: the mask and the six match words decide, and nothing else; what matches none is illegal. -/
def Obligations.DecodeByMaskAndMatch : Prop :=
  ∀ r : Request,
    let b0 := (r >>> 40).setWidth 8
    let b1 := (r >>> 32).setWidth 8
    let b2 := (r >>> 24).setWidth 8
    let b3 := (r >>> 16).setWidth 8
    let b4 := (r >>> 8).setWidth 8
    let b5 := r.setWidth 8
    let top := r &&& 0xFF000000000000
    decode r =
      if top = 0x01000000000000 then .ok (.crc8 b0 b1)
      else if top = 0x02000000000000 then .ok (.chk b0 b1 b2)
      else if top = 0x03000000000000 then .ok (.dect b0 b1)
      else if top = 0x04000000000000 then .ok (.decrh b0 b1)
      else if top = 0x05000000000000 then .ok (.meas b0 b1 b2 b3 b4 b5)
      else if top = 0x06000000000000 then .ok (.ser b0 b1 b2 b3 b4 b5)
      else .error (.illegalOpcode ((r >>> 48).setWidth 8))

/-- R51: the seven fields of the request word, each at its own bits, are the whole word. -/
def Obligations.RequestFieldLayout : Prop :=
  (∀ r : Request, r.toNat = (reqOp r).toNat * 2 ^ 48 + (reqB0 r).toNat * 2 ^ 40 + (reqB1 r).toNat * 2 ^ 32
      + (reqB2 r).toNat * 2 ^ 24 + (reqB3 r).toNat * 2 ^ 16 + (reqB4 r).toNat * 2 ^ 8 + (reqB5 r).toNat) ∧
    decode 0x05642CAC5BD8C1 = .ok (.meas 0x64 0x2C 0xAC 0x5B 0xD8 0xC1)

/-- R55: the bytes an operation reads, and that every value of the others is accepted and changes nothing; the
canonical encoding has zeros there. -/
def Obligations.UnreadBytesIgnored : Prop :=
  ∀ (b0 b1 b2 b3 b4 b5 : Byte),
    (decode (packRequest 0x01 b0 b1 b2 b3 b4 b5) = .ok (.crc8 b0 b1) ∧
      encode (.crc8 b0 b1) = packRequest 0x01 b0 b1 0x00 0x00 0x00 0x00) ∧
    (decode (packRequest 0x02 b0 b1 b2 b3 b4 b5) = .ok (.chk b0 b1 b2) ∧
      encode (.chk b0 b1 b2) = packRequest 0x02 b0 b1 b2 0x00 0x00 0x00) ∧
    (decode (packRequest 0x03 b0 b1 b2 b3 b4 b5) = .ok (.dect b0 b1) ∧
      encode (.dect b0 b1) = packRequest 0x03 b0 b1 0x00 0x00 0x00 0x00) ∧
    (decode (packRequest 0x04 b0 b1 b2 b3 b4 b5) = .ok (.decrh b0 b1) ∧
      encode (.decrh b0 b1) = packRequest 0x04 b0 b1 0x00 0x00 0x00 0x00) ∧
    (decode (packRequest 0x05 b0 b1 b2 b3 b4 b5) = .ok (.meas b0 b1 b2 b3 b4 b5) ∧
      encode (.meas b0 b1 b2 b3 b4 b5) = packRequest 0x05 b0 b1 b2 b3 b4 b5) ∧
    (decode (packRequest 0x06 b0 b1 b2 b3 b4 b5) = .ok (.ser b0 b1 b2 b3 b4 b5) ∧
      encode (.ser b0 b1 b2 b3 b4 b5) = packRequest 0x06 b0 b1 b2 b3 b4 b5)

/-- The six encoding examples of 30_encoding.md section 7, word by word. -/
def Obligations.SpecExampleWordsDecode : Prop :=
  decode 0x01BEEF00000000 = .ok (.crc8 0xBE 0xEF) ∧
  decode 0x02642CAC000000 = .ok (.chk 0x64 0x2C 0xAC) ∧
  decode 0x03642C00000000 = .ok (.dect 0x64 0x2C) ∧
  decode 0x045BD800000000 = .ok (.decrh 0x5B 0xD8) ∧
  decode 0x05642CAC5BD8C1 = .ok (.meas 0x64 0x2C 0xAC 0x5B 0xD8 0xC1) ∧
  decode 0x06123437ABCD6F = .ok (.ser 0x12 0x34 0x37 0xAB 0xCD 0x6F)

/-- R42: big-endian raw values, never sign-extended, and the serial number by the document's shifts and ors, `B0` its most
significant byte and `B4` its least. -/
def Obligations.BigEndianAssembly : Prop :=
  (∀ hi lo : Byte, (be16 hi lo).toNat = hi.toNat * 256 + lo.toNat ∧ be16 hi lo = hi ++ lo) ∧
  (∀ b0 b1 b3 b4 : Byte,
    serialWord b0 b1 b3 b4 =
      b0.setWidth 32 <<< 24 ||| b1.setWidth 32 <<< 16 ||| b3.setWidth 32 <<< 8 ||| b4.setWidth 32 ∧
    (serialWord b0 b1 b3 b4).extractLsb' 24 8 = b0 ∧ (serialWord b0 b1 b3 b4).extractLsb' 0 8 = b4) ∧
  (be16 0x80 0x00).toNat = 32768

/-! ### Assembler -/

/-- R60: `TEMP` and `RHUM` assemble to exactly what `MEAS` does, whatever the operands, and with six bytes to its request. -/
def Obligations.PseudoOperationsAssembleToMeas : Prop :=
  (∀ vs : List Nat,
    assembleSource { word := Mnemonic.temp.name, operands := vs } =
      assembleSource { word := Mnemonic.meas.name, operands := vs } ∧
    assembleSource { word := Mnemonic.rhum.name, operands := vs } =
      assembleSource { word := Mnemonic.meas.name, operands := vs }) ∧
  ∀ b0 b1 b2 b3 b4 b5 : Byte,
    assembleSource { word := Mnemonic.temp.name,
                     operands := [b0.toNat, b1.toNat, b2.toNat, b3.toNat, b4.toNat, b5.toNat] } =
      .ok (encode (.meas b0 b1 b2 b3 b4 b5))

/-- A source line is assembled exactly when none of the three assembly errors applies, and then to a legal canonical request;
each error says which check failed (30_encoding.md section 6; the order of the checks is the model's, log entry 12). -/
def Obligations.AssemblyErrorsExactly : Prop :=
  ∀ l : SourceLine,
    (l.wf = true ↔ ∃ i, assembleSource l = .ok (encode i)) ∧
    (assembleSource l = .error .unknownMnemonic ↔ l.mnemonicKnown = false) ∧
    (assembleSource l = .error .wrongOperandCount ↔ l.mnemonicKnown = true ∧ l.countRight = false) ∧
    (assembleSource l = .error .byteOutOfRange ↔ l.countRight = true ∧ l.bytesInRange = false)

/-- Disassembling a legal word and assembling the text gives the canonical encoding; an illegal word prints as `.req 0x` and
its 14 digits (30_encoding.md section 6). Two things here are the model's choice, no rule of the spec: that the `.req` text
assembles to no request and no empty line (log entry 12; P4 of 95_test_vectors.md prints `.req` in its assembly column), and
how a byte is spelled (log entry 13). -/
def Obligations.DisassembleThenAssemble : Prop :=
  ∀ r : Request,
    match decode r with
    | .ok i => assembleLine (disassemble r) = .ok (some (encode i))
    | .error _ =>
      disassemble r = ['.', 'r', 'e', 'q', ' ', '0', 'x']
        ++ hexPair (reqOp r) ++ hexPair (reqB0 r) ++ hexPair (reqB1 r) ++ hexPair (reqB2 r)
        ++ hexPair (reqB3 r) ++ hexPair (reqB4 r) ++ hexPair (reqB5 r) ∧
      ∀ w, assembleLine (disassemble r) ≠ .ok w

/-! ### The operations: result, frame and completion -/

/-- R73, whole: `CRC8` on every payload, whatever the ignored bytes, in every state; the corner cases and the example. -/
def Obligations.Crc8Rule : Prop :=
  (∀ (b0 b1 b2 b3 b4 b5 : Byte) (s : State),
    let u : State := { s with crc := some (crc8 b0 b1), err := false, which := 0, ill := false }
    exec (.crc8 b0 b1) s = .next u ∧ acceptRequest (packRequest 0x01 b0 b1 b2 b3 b4 b5) s = .next u) ∧
  crc8 0x00 0x00 = 0x81 ∧ crc8 0xFF 0xFF = 0xAC ∧ crc8 0x64 0x2C = 0xAC ∧
  (∀ s, (afterRequest 0x01BEEF00000000 s).crc = some 0x92) ∧
  (List.range 8).map (fun k => crcShifts (k + 1) (0xFF ^^^ 0xBE)) = [0x82, 0x35, 0x6A, 0xD4, 0x99, 0x03, 0x06, 0x0C] ∧
  (List.range 8).map (fun k => crcShifts (k + 1) (0x0C ^^^ 0xEF)) = [0xF7, 0xDF, 0x8F, 0x2F, 0x5E, 0xBC, 0x49, 0x92]

/-- R77, whole: `CHK` on every field; only `MATCH` and the outcome flags change; stuck buses never validate; the examples. -/
def Obligations.ChkRule : Prop :=
  (∀ (b0 b1 b2 b3 b4 b5 : Byte) (s : State),
    let u : State := { s with matchBit := decide (crc8 b0 b1 = b2), err := false, which := 0, ill := false }
    exec (.chk b0 b1 b2) s = .next u ∧ acceptRequest (packRequest 0x02 b0 b1 b2 b3 b4 b5) s = .next u) ∧
  crc8 0x00 0x00 ≠ 0x00 ∧ crc8 0xFF 0xFF ≠ 0xFF ∧
  (∀ s, (afterRequest 0x02642CAC000000 s).matchBit = true ∧ (afterRequest 0x02642CAD000000 s).matchBit = false) ∧
  (∀ (r : Request) (s : State), reqOp r ≠ 0x02 → (afterRequest r s).matchBit = s.matchBit)

/-- R94, whole: `DECT` on every pair of bytes; the corner cases (endpoints, sign change, no zero, no sign extension) and the
example. -/
def Obligations.DectRule : Prop :=
  (∀ (b0 b1 b2 b3 b4 b5 : Byte) (s : State),
    let n : Int := 315 * ((b0.toNat * 256 + b1.toNat : Nat) : Int) - 3211215
    let u : State := { s with
      t := some (BitVec.ofInt 32 (n + Int.fdiv (2 * n + 65535) 131070)), err := false, which := 0, ill := false }
    exec (.dect b0 b1) s = .next u ∧ acceptRequest (packRequest 0x03 b0 b1 b2 b3 b4 b5) s = .next u) ∧
  (∀ raw : Raw, (tempFx raw < 0 ↔ raw.toNat ≤ 10194) ∧ (0 < tempFx raw ↔ 10195 ≤ raw.toNat) ∧ tempFx raw ≠ 0) ∧
  tempBits 0x0000 = 0xFFCF0000 ∧ tempBits 0xFFFF = 0x010A0000 ∧ tempBits 10194 = 0xFFFFFF97 ∧
  tempBits 10195 = 0x000000D2 ∧ tempBits 0x8000 = 0x006C809E ∧
  tempNum 0x642C = 4866645 ∧ tempVal 0x642C = 4866645 / 65535 ∧ tempFx 0x642C = 4866719 ∧
  (∀ s, (afterRequest 0x03642C00000000 s).t = some 0x004A429F)

/-- R100, whole: `DECRH` on every pair of bytes, with the clamp; the corner cases at both thresholds and the example. -/
def Obligations.DecrhRule : Prop :=
  (∀ (b0 b1 b2 b3 b4 b5 : Byte) (s : State),
    let n : Int := 125 * ((b0.toNat * 256 + b1.toNat : Nat) : Int) - 393210
    let h : Int := if n ≤ 0 then 0 else if 6553500 ≤ n then 6553600 else n + Int.fdiv (2 * n + 65535) 131070
    let u : State := { s with rh := some (BitVec.ofInt 32 h), err := false, which := 0, ill := false }
    exec (.decrh b0 b1) s = .next u ∧ acceptRequest (packRequest 0x04 b0 b1 b2 b3 b4 b5) s = .next u) ∧
  humBits 0x0000 = 0x00000000 ∧ humBits 0xFFFF = 0x00640000 ∧ humBits 3145 = 0 ∧ humBits 3146 = 0x00000028 ∧
  humBits 55573 = 0x0063FFAB ∧ humBits 55574 = 0x00640000 ∧
  humPre 0x0000 = -6 ∧ humPre 0xFFFF = 119 ∧ humPre 3145 = -85 / 65535 ∧ humPre 3146 = 40 / 65535 ∧
  humNum 0x5BD8 = 2545790 ∧ humPre 0x5BD8 = 2545790 / 65535 ∧ humFx 0x5BD8 = 2545829 ∧
  (∀ s, (afterRequest 0x045BD800000000 s).rh = some 0x0026D8A5)

/-- R111, whole: `MEAS` on every frame in every state, success and both errors; the corner cases and the example. -/
def Obligations.MeasRule : Prop :=
  (∀ (b0 b1 b2 b3 b4 b5 : Byte) (s : State),
    let u : State :=
      if crc8 b0 b1 ≠ b2 then { s with t := none, rh := none, err := true, which := 2, ill := false }
      else if crc8 b3 b4 ≠ b5 then { s with t := none, rh := none, err := true, which := 3, ill := false }
      else { s with
        t := some (tempBits (be16 b0 b1)), rh := some (humBits (be16 b3 b4)),
        err := false, which := 0, ill := false }
    exec (.meas b0 b1 b2 b3 b4 b5) s = .next u ∧ acceptRequest (packRequest 0x05 b0 b1 b2 b3 b4 b5) s = .next u) ∧
  (∀ s, (afterRequest 0x05000000000000 s).reported = some (.checksum .temperature) ∧
    (afterRequest 0x05FFFFFFFFFFFF s).reported = some (.checksum .temperature) ∧
    (afterRequest 0x05642CAC642CAC s).reported = none) ∧
  (afterRequest 0x05642CAC5BD8C1 State.reset).t = some 0x004A429F ∧
  (afterRequest 0x05642CAC5BD8C1 State.reset).rh = some 0x0026D8A5 ∧
  (afterRequest 0x05642CAC5BD8C1 State.reset).statusWord = 0x0600

/-- R113, whole: `SER` on every frame in every state, success and both errors; the corner cases and the example. -/
def Obligations.SerRule : Prop :=
  (∀ (b0 b1 b2 b3 b4 b5 : Byte) (s : State),
    let u : State :=
      if crc8 b0 b1 ≠ b2 then { s with sn := none, err := true, which := 0, ill := false }
      else if crc8 b3 b4 ≠ b5 then { s with sn := none, err := true, which := 1, ill := false }
      else { s with
        sn := some (b0.setWidth 32 <<< 24 ||| b1.setWidth 32 <<< 16 ||| b3.setWidth 32 <<< 8 ||| b4.setWidth 32),
        err := false, which := 0, ill := false }
    exec (.ser b0 b1 b2 b3 b4 b5) s = .next u ∧ acceptRequest (packRequest 0x06 b0 b1 b2 b3 b4 b5) s = .next u) ∧
  (∀ s, (afterRequest 0x06000081000081 s).sn = some 0x00000000 ∧
    (afterRequest 0x06FFFFACFFFFAC s).sn = some 0xFFFFFFFF) ∧
  (afterRequest 0x06123437ABCD6F State.reset).sn = some 0x1234ABCD ∧
  (afterRequest 0x06123437ABCD6F State.reset).statusWord = 0x0800

/-- When both fields are valid, `MEAS` leaves in `T` what `DECT` of its first payload would and in `RH` what `DECRH` of its
second would, from any states (42_frame.md section 5). -/
def Obligations.MeasComposesDecoders : Prop :=
  ∀ (b0 b1 b3 b4 : Byte) (s s1 s2 : State),
    ∃ u u1 u2, exec (.meas b0 b1 (crc8 b0 b1) b3 b4 (crc8 b3 b4)) s = .next u ∧
      exec (.dect b0 b1) s1 = .next u1 ∧ exec (.decrh b3 b4) s2 = .next u2 ∧
      u.t = u1.t ∧ u.rh = u2.rh ∧ u.t ≠ none ∧ u.rh ≠ none ∧ u.err = false

/-- `MEAS`, and likewise `SER`, raises no error exactly when `CHK` of each of its fields would set `MATCH`
(40_checksum.md section 2). -/
def Obligations.ChkAgreesWithFrames : Prop :=
  ∀ (b0 b1 b2 b3 b4 b5 : Byte) (s s1 s2 : State),
    ∃ m n k1 k2, exec (.meas b0 b1 b2 b3 b4 b5) s = .next m ∧ exec (.ser b0 b1 b2 b3 b4 b5) s = .next n ∧
      exec (.chk b0 b1 b2) s1 = .next k1 ∧ exec (.chk b3 b4 b5) s2 = .next k2 ∧
      (m.err = false ↔ k1.matchBit = true ∧ k2.matchBit = true) ∧
      (n.err = false ↔ k1.matchBit = true ∧ k2.matchBit = true)

/-- R115 and R116: `TEMP` and `RHUM` validate BOTH fields and then give the one register; a bad humidity field fails `TEMP`
too. -/
def Obligations.WrappersValidateBothFields : Prop :=
  ∀ (b0 b1 b2 b3 b4 b5 : Byte) (s : State),
    pseudoTemp b0 b1 b2 b3 b4 b5 s =
      (if crc8 b0 b1 ≠ b2 then .error (.checksum .temperature)
       else if crc8 b3 b4 ≠ b5 then .error (.checksum .humidity)
       else .ok (tempBits (be16 b0 b1))) ∧
    pseudoRhum b0 b1 b2 b3 b4 b5 s =
      (if crc8 b0 b1 ≠ b2 then .error (.checksum .temperature)
       else if crc8 b3 b4 ≠ b5 then .error (.checksum .humidity)
       else .ok (humBits (be16 b3 b4)))

/-! ### Errors and STATUS -/

/-- R57 and R134: a request whose opcode is not one of the six sets `ILL`, clears `ERR` and `WHICH` and changes nothing else;
there are 250 such opcodes, `0x00` and `0xFF` among them. -/
def Obligations.IllegalOpcodeReported : Prop :=
  (∀ (r : Request) (s : State), reqOp r ∉ legalOps →
    acceptRequest r s = .next { s with ill := true, err := false, which := 0 }) ∧
  ((List.range 256).map (fun n => BitVec.ofNat 8 n)).countP (fun op => !legalOps.contains op) = 250 ∧
  (∀ s, (afterRequest 0x00000000000000 s).ill = true ∧ (afterRequest 0xFFFFFFFFFFFFFF s).ill = true)

/-- R132: the four quantities, the operation that raises each, and the exact condition. -/
def Obligations.ChecksumErrorCauses : Prop :=
  ∀ (i : Instr) (s : State), ∃ u, exec i s = .next u ∧
    ((u.err = true ∧ u.which = 0) ↔ ∃ b0 b1 b2 b3 b4 b5, i = .ser b0 b1 b2 b3 b4 b5 ∧ crc8 b0 b1 ≠ b2) ∧
    ((u.err = true ∧ u.which = 1) ↔
      ∃ b0 b1 b2 b3 b4 b5, i = .ser b0 b1 b2 b3 b4 b5 ∧ crc8 b0 b1 = b2 ∧ crc8 b3 b4 ≠ b5) ∧
    ((u.err = true ∧ u.which = 2) ↔ ∃ b0 b1 b2 b3 b4 b5, i = .meas b0 b1 b2 b3 b4 b5 ∧ crc8 b0 b1 ≠ b2) ∧
    ((u.err = true ∧ u.which = 3) ↔
      ∃ b0 b1 b2 b3 b4 b5, i = .meas b0 b1 b2 b3 b4 b5 ∧ crc8 b0 b1 = b2 ∧ crc8 b3 b4 ≠ b5)

/-- R130: a request ends in exactly one of three ways, the same from every state; only `MEAS` and `SER` raise
`ChecksumError`, and exactly an illegal opcode raises `IllegalOperation`. -/
def Obligations.OutcomeFixedByRequest : Prop :=
  ∀ r : Request, ∃ outcome : Option OpError,
    (∀ s, acceptRequest r s = .next (afterRequest r s) ∧ (afterRequest r s).reported = outcome) ∧
    (outcome = some .illegalOperation ↔ reqOp r ∉ legalOps) ∧
    (∀ q, outcome = some (.checksum q) → reqOp r = 0x05 ∨ reqOp r = 0x06)

/-- R31 and R135: what `ERR`, `WHICH` and `ILL` are after a request, in the order of priority, whatever they were before;
an illegal request writes nothing else, `MATCH` is written by `CHK` alone, and a valid bit changes only for an operation that
writes its register. -/
def Obligations.OutcomePriority : Prop :=
  ∀ (r : Request) (s : State),
    let u := afterRequest r s
    ((u.err, u.which, u.ill) =
      if reqOp r ∉ legalOps then (false, 0, true)
      else if reqOp r = 0x05 ∧ crc8 (reqB0 r) (reqB1 r) ≠ reqB2 r then (true, 2, false)
      else if reqOp r = 0x05 ∧ crc8 (reqB3 r) (reqB4 r) ≠ reqB5 r then (true, 3, false)
      else if reqOp r = 0x06 ∧ crc8 (reqB0 r) (reqB1 r) ≠ reqB2 r then (true, 0, false)
      else if reqOp r = 0x06 ∧ crc8 (reqB3 r) (reqB4 r) ≠ reqB5 r then (true, 1, false)
      else (false, 0, false)) ∧
    (reqOp r ∉ legalOps → u = { s with err := false, which := 0, ill := true }) ∧
    (reqOp r ≠ 0x02 → u.matchBit = s.matchBit) ∧
    (reqOp r ≠ 0x01 → u.valid .crc = s.valid .crc) ∧
    (reqOp r ≠ 0x03 → reqOp r ≠ 0x05 → u.valid .t = s.valid .t) ∧
    (reqOp r ≠ 0x04 → reqOp r ≠ 0x05 → u.valid .rh = s.valid .rh) ∧
    (reqOp r ≠ 0x06 → u.valid .sn = s.valid .sn)

/-- R136: the whole effect of each error, on whatever request raised it. -/
def Obligations.ErrorEffectIsExact : Prop :=
  ∀ (r : Request) (s : State) (e : OpError), (afterRequest r s).reported = some e →
    afterRequest r s =
      match e with
      | .checksum .serialHalf1 => { s with sn := none, err := true, which := 0, ill := false }
      | .checksum .serialHalf2 => { s with sn := none, err := true, which := 1, ill := false }
      | .checksum .temperature => { s with t := none, rh := none, err := true, which := 2, ill := false }
      | .checksum .humidity => { s with t := none, rh := none, err := true, which := 3, ill := false }
      | .illegalOperation => { s with err := false, which := 0, ill := true }

/-- R30: the codes of `WHICH` in the listing order; bit 1 tells the frame kind and bit 0 the half. -/
def Obligations.QuantityCodes : Prop :=
  [Quantity.serialHalf1, .serialHalf2, .temperature, .humidity].map Quantity.code = [0, 1, 2, 3] ∧
  ∀ q : Quantity,
    (q.code.getLsbD 1 = true ↔ q = .temperature ∨ q = .humidity) ∧
    (q.code.getLsbD 0 = true ↔ q = .serialHalf2 ∨ q = .humidity)

/-- R29 and R32: the layout of STATUS and its reserved bits; what each field means after a request and which request may
change it; its reset value. -/
def Obligations.StatusRegister : Prop :=
  (∀ s : State,
    s.statusWord.getLsbD 0 = s.err ∧ s.statusWord.extractLsb' 1 2 = s.which ∧ s.statusWord.getLsbD 3 = s.ill ∧
    s.statusWord.getLsbD 4 = s.matchBit ∧ s.statusWord.extractLsb' 5 3 = 0 ∧
    s.statusWord.getLsbD 8 = s.crc.isSome ∧ s.statusWord.getLsbD 9 = s.t.isSome ∧
    s.statusWord.getLsbD 10 = s.rh.isSome ∧ s.statusWord.getLsbD 11 = s.sn.isSome ∧
    s.statusWord.extractLsb' 12 4 = 0) ∧
  (∀ (r : Request) (s : State),
    let u := afterRequest r s
    (u.err = true ↔ ∃ q, refError r = some (.checksum q)) ∧
    (∀ q, refError r = some (.checksum q) → u.which = q.code) ∧
    (u.ill = true ↔ refError r = some .illegalOperation) ∧
    (reqOp r = 0x02 → (u.matchBit = true ↔ crc8 (reqB0 r) (reqB1 r) = reqB2 r)) ∧
    (u.matchBit ≠ s.matchBit → reqOp r = 0x02) ∧
    (u.crc ≠ s.crc → reqOp r = 0x01) ∧
    (u.t ≠ s.t → reqOp r = 0x03 ∨ reqOp r = 0x05) ∧
    (u.rh ≠ s.rh → reqOp r = 0x04 ∨ reqOp r = 0x05) ∧
    (u.sn ≠ s.sn → reqOp r = 0x06) ∧
    (u.err = false → u.which = 0)) ∧
  State.reset.statusWord = 0x0000

/-! ### The checksum -/

/-- The table of 40_checksum.md section 1 is the byte step from zero, gives every byte step, and gives the checksum. -/
def Obligations.ChecksumByTable : Prop :=
  (∀ b : Byte, crcTable b = crcStep 0x00 b) ∧
  (∀ c b : Byte, crcStep c b = crcTable (c ^^^ b)) ∧
  ∀ d0 d1 : Byte, crc8 d0 d1 = crcTable (crcTable (0xFF ^^^ d0) ^^^ d1)

/-- The checksum is affine over the two-element field and its linear part is `syn` (40_checksum.md section 1). -/
def Obligations.ChecksumIsAffine : Prop :=
  (∀ d0 d1 e0 e1 : Byte, crc8 (d0 ^^^ e0) (d1 ^^^ e1) = crc8 d0 d1 ^^^ syn e0 e1) ∧
  (∀ e0 e1 f0 f1 : Byte, syn (e0 ^^^ f0) (e1 ^^^ f1) = syn e0 e1 ^^^ syn f0 f1) ∧
  syn 0 0 = 0 ∧ ∀ e0 e1 : Byte, syn e0 e1 = crcTable (crcTable e0 ^^^ e1)

/-- Each payload byte, the other held fixed, is carried one to one onto the checksums, so every checksum belongs to exactly
256 payloads; and only `0x2B` is its own field (40_checksum.md section 1). -/
def Obligations.ChecksumIsBalanced : Prop :=
  (∀ d0 c : Byte, ∃ d1, crc8 d0 d1 = c ∧ ∀ y, crc8 d0 y = c → y = d1) ∧
  (∀ d1 c : Byte, ∃ d0, crc8 d0 d1 = c ∧ ∀ y, crc8 y d1 = c → y = d0) ∧
  ∀ a : Byte, crc8 a a = a ↔ a = 0x2B

/-- The checksum is what the parameter list of 00_scope.md section 4 gives one message bit at a time (40_checksum.md section 1; the
meaning of such a list is general knowledge, log entry 15). -/
def Obligations.ChecksumFromParameters : Prop :=
  (∀ d0 d1 : Byte,
    paramChecksum Config.poly Config.init Config.refIn Config.refOut Config.xorOut [d0, d1] = crc8 d0 d1) ∧
  Config.poly = 0x31 ∧ Config.init = 0xFF ∧ Config.refIn = false ∧ Config.refOut = false ∧ Config.xorOut = 0x00

/-- The checksum is the remainder of the payload polynomial, its first byte xored with `INIT`, by `x^8 + x^5 + x^4 + 1`
(40_checksum.md section 1: the full polynomial is `0x131`; that the checksum is this remainder is general knowledge of such
codes, log entry 15). -/
def Obligations.ChecksumIsPolynomialRemainder : Prop :=
  ∀ d0 d1 : Byte, polyRem 16 (payloadPoly d0 d1) = (crc8 d0 d1).setWidth 24

/-- A change of a valid field goes undetected exactly when the change of its checksum byte is `syn` of the change of its
payload; with the checksum byte left stale, exactly when `syn` is zero (40_checksum.md section 3). -/
def Obligations.UndetectedChanges : Prop :=
  ∀ d0 d1 e0 e1 e : Byte,
    (fieldOk (d0 ^^^ e0) (d1 ^^^ e1) (crc8 d0 d1 ^^^ e) = true ↔ e = syn e0 e1) ∧
    (fieldOk (d0 ^^^ e0) (d1 ^^^ e1) (crc8 d0 d1) = true ↔ syn e0 e1 = 0) ∧
    syn 0x01 0x31 = 0

/-- Every change of 1, 2 or 3 of the 24 bits of a valid field makes it invalid; some change of 4 does not
(40_checksum.md section 3). -/
def Obligations.SmallChangesDetected : Prop :=
  (∀ w e : BitVec 24, fieldWordOk w = true → 1 ≤ flips e → flips e ≤ 3 → fieldWordOk (w ^^^ e) = false) ∧
  fieldWordOk (fieldWord 0x12 0x34 0x37) = true ∧ flips (fieldWord 0x80 0x00 0x23) = 4 ∧
  fieldWordOk (fieldWord 0x12 0x34 0x37 ^^^ fieldWord 0x80 0x00 0x23) = true

/-! ### The decoders -/

/-- R90: `q16` is the nearest integer, off by at most `2^-17` in value; on a multiple of `1/65535` there is no tie, and the
integer form is exact. -/
def Obligations.RoundingIsNearest : Prop :=
  (∀ v : Rat, q16 v = ⌊v * 65536 + 1 / 2⌋ ∧ |(q16 v : Rat) / 65536 - v| ≤ 1 / 131072) ∧
  ∀ n : Int, q16 ((n : Rat) / 65535) = n + Int.fdiv (2 * n + 65535) 131070 ∧
    Int.fract ((n : Rat) / 65535 * 65536) ≠ 1 / 2

/-- What `T` holds is the rounding of the exact rational formula, off by less than `2^-17` (41_decode.md section 2). -/
def Obligations.TemperatureIsExact : Prop :=
  ∀ raw : Raw,
    tempFx raw = q16 (-49 + 315 * (raw.toNat : Rat) / 65535) ∧ tempFx raw = q16 (tempVal raw) ∧
    |(tempFx raw : Rat) / 65536 - tempVal raw| < 1 / 2 ^ 17

/-- What `RH` holds is the rounding of the clamped exact formula, clamping before rounding or after, off by less than `2^-17`
(41_decode.md section 3). -/
def Obligations.HumidityIsExact : Prop :=
  ∀ raw : Raw,
    humFx raw = q16 (humVal raw) ∧ humFx raw = max 0 (min 6553600 (q16 (humPre raw))) ∧
    humPre raw = -6 + 125 * (raw.toNat : Rat) / 65535 ∧ |(humFx raw : Rat) / 65536 - humVal raw| < 1 / 2 ^ 17

/-- The temperature decoder is strictly increasing in steps of 315 or 316, with the endpoints -49 and 266 exact
(41_decode.md section 2). -/
def Obligations.TemperatureIsMonotone : Prop :=
  (∀ x y : Raw, x.toNat < y.toNat → tempFx x < tempFx y) ∧
  (∀ x y : Raw, y.toNat = x.toNat + 1 → tempFx y - tempFx x = 315 ∨ tempFx y - tempFx x = 316) ∧
  tempFx 0x0000 = -49 * 65536 ∧ tempFx 0xFFFF = 266 * 65536 ∧
  ∀ x : Raw, -3211264 ≤ tempFx x ∧ tempFx x ≤ 17432576

/-- The humidity decoder never decreases, is constant at its clamped ends, and moves in the steps of 41_decode.md section 3. -/
def Obligations.HumidityIsMonotone : Prop :=
  (∀ x y : Raw, x.toNat ≤ y.toNat → humFx x ≤ humFx y) ∧
  (∀ x : Raw, (x.toNat ≤ 3145 → humFx x = 0) ∧ (55574 ≤ x.toNat → humFx x = 6553600) ∧
    0 ≤ humFx x ∧ humFx x ≤ 6553600) ∧
  (∀ x y : Raw, y.toNat = x.toNat + 1 → 3146 ≤ x.toNat → y.toNat ≤ 55573 →
    humFx y - humFx x = 125 ∨ humFx y - humFx x = 126) ∧
  humFx 3146 - humFx 3145 = 40 ∧ humFx 55574 - humFx 55573 = 85

/-- R98: the clamp and its thresholds in terms of the raw value; no raw value meets a bound exactly. -/
def Obligations.HumidityClamp : Prop :=
  ∀ raw : Raw,
    (humVal raw = if humPre raw < 0 then 0 else if 100 < humPre raw then 100 else humPre raw) ∧
    (raw.toNat ≤ 3145 → humVal raw = 0) ∧ (55574 ≤ raw.toNat → humVal raw = 100) ∧
    (3146 ≤ raw.toNat → raw.toNat ≤ 55573 → humVal raw = humPre raw) ∧
    humNum raw ≠ 0 ∧ humNum raw ≠ 6553500 ∧ humPre raw ≠ 0 ∧ humPre raw ≠ 100

/-- No step of the decoders leaves the widths of 43_other_classes.md section 1, and turning the result into 32 bits loses
nothing. -/
def Obligations.DecodersNeverOverflow : Prop :=
  ∀ raw : Raw,
    (tempNum raw = 315 * (raw.toNat : Int) - 3211215 ∧ -3211215 ≤ tempNum raw ∧ tempNum raw ≤ 17432310 ∧
      -6356895 ≤ 2 * tempNum raw + 65535 ∧ 2 * tempNum raw + 65535 ≤ 34930155) ∧
    (humNum raw = 125 * (raw.toNat : Int) - 393210 ∧ -393210 ≤ humNum raw ∧ humNum raw ≤ 7798665) ∧
    (tempBits raw).toInt = tempFx raw ∧ (humBits raw).toInt = humFx raw ∧ (humBits raw).msb = false

/-- Both decoders give the nearest integer to `65536 * d`, where `d` is the document's expression evaluated left to right in
IEEE 754 binary64, humidity clamped after (41_decode.md sections 2 and 3; the rounding of each operation to nearest, ties to
even, is taken from IEEE 754, log entry 14). -/
def Obligations.AgreesWithBinary64 : Prop :=
  ∀ raw : Raw, tempFx raw = ⌊65536 * temp64 raw + 1 / 2⌋ ∧ humFx raw = ⌊65536 * hum64 raw + 1 / 2⌋

/-! ### The machine -/

/-- R33: the reset state; reading any result register there is the fault that names it. -/
def Obligations.ResetState : Prop :=
  State.reset.statusWord = 0x0000 ∧ State.reset.err = false ∧ State.reset.which = 0 ∧ State.reset.ill = false ∧
  State.reset.matchBit = false ∧ State.reset.crc = none ∧ State.reset.t = none ∧ State.reset.rh = none ∧
  State.reset.sn = none ∧ State.reset.readCrc = .error (.readOfNoValue .crc) ∧
  State.reset.readT = .error (.readOfNoValue .t) ∧ State.reset.readRh = .error (.readOfNoValue .rh) ∧
  State.reset.readSn = .error (.readOfNoValue .sn)

/-- R150: reset is available from every state and gives the one reset state (the list of the host's moves, the model's own, put
aside); at the ports it accepts no request, abandons one in
progress without any of its writes, gives no `resp_valid` and leaves the block ready. -/
def Obligations.ResetFromEveryState : Prop :=
  (∀ (s : State) (later : List HostMove), s.hostMoves = .assertRst :: later →
    ∃ u, step s = .next u ∧ u.setMoves [] = State.reset) ∧
  ∀ (latency : Nat) (i : Inputs) (b : Block), i.rst = true →
    b.accepts i = false ∧ (b.cycle latency i).core.setMoves [] = State.reset ∧
    (b.cycle latency i).inFlight = none ∧ (b.cycle latency i).outputs.respValid = false ∧
    (b.cycle latency i).outputs.reqReady = true ∧ (b.cycle latency i).outputs.status = 0x0000

/-- Tier 3. Every step from a state that meets the invariant gives one that meets it (10_state.md sections 3 and 4,
60_exceptions.md section 3). -/
def Obligations.StepKeepsInvariant : Prop := ∀ s u : State, s.Inv → step s = .next u → u.Inv

/-- The invariant holds at reset. -/
def Obligations.InvariantAtReset : Prop := State.reset.Inv

/-- A step runs the decoded operation: a request at the head of the host's moves is taken off and executed; an illegal one is
reported; with no move the state is kept (the list of moves is the model's own, log entry 1). -/
def Obligations.StepRunsDecoded : Prop :=
  (∀ (s : State) (r : Request) (i : Instr) (later : List HostMove),
    s.hostMoves = .present r :: later → decode r = .ok i → step s = exec i { s with hostMoves := later }) ∧
  (∀ (s : State) (r : Request) (later : List HostMove), s.hostMoves = .present r :: later → reqOp r ∉ legalOps →
    step s = .next { s with hostMoves := later, err := false, which := 0, ill := true }) ∧
  ∀ s : State, s.hostMoves = [] → step s = .next s

/-- R143: a `ChecksumError` is a next state with `ERR` = 1 and an illegal opcode one with `ILL` = 1, never a fault; a read of a
register gives its value when it holds one and is otherwise the fault that names it. -/
def Obligations.ErrorsAreStatesAndEmptyReadsFault : Prop :=
  (∀ (r : Request) (s : State), ∃ u, acceptRequest r s = .next u ∧
    (u.err = true ↔ ∃ q, refError r = some (.checksum q)) ∧ (u.ill = true ↔ refError r = some .illegalOperation)) ∧
  ∀ s : State,
    (∀ v, s.readCrc = .ok v ↔ s.crc = some v) ∧ (s.readCrc = .error (.readOfNoValue .crc) ↔ s.valid .crc = false) ∧
    (∀ v, s.readT = .ok v ↔ s.t = some v) ∧ (s.readT = .error (.readOfNoValue .t) ↔ s.valid .t = false) ∧
    (∀ v, s.readRh = .ok v ↔ s.rh = some v) ∧ (s.readRh = .error (.readOfNoValue .rh) ↔ s.valid .rh = false) ∧
    (∀ v, s.readSn = .ok v ↔ s.sn = some v) ∧ (s.readSn = .error (.readOfNoValue .sn) ↔ s.valid .sn = false)

/-- The one fault of a step is the host's use of a register that holds no value, and it happens exactly there; a use of a
register that holds one changes nothing but the list of moves (60_exceptions.md section 7, 70_reset_and_hazards.md section 3;
that a read is a step of its own is the model's choice, log entry 4). -/
def Obligations.StepFaultsExactlyOnEmptyRead : Prop :=
  ∀ s : State,
    ((∃ u, step s = .next u) ↔ s.hostKeepsContract = true) ∧
    (∀ f, step s = .fault f ↔ ∃ r later, s.hostMoves = .readResult r :: later ∧ s.valid r = false ∧ f = .readOfNoValue r) ∧
    (∀ x, step s ≠ .refused x) ∧
    (∀ r later, s.hostMoves = .readResult r :: later → s.valid r = true → step s = .next { s with hostMoves := later })

/-- R47: all writes of a request appear together at the ports; the same request twice leaves what it left once; `MEAS` never
leaves one of `T` and `RH` written alone; reading changes nothing. -/
def Obligations.AtomicAndIdempotent : Prop :=
  (∀ b : Block, b.shown = b.core ∨ ∃ p, b.inFlight = some p ∧ b.shown = afterRequest p.req b.core) ∧
  (∀ (r : Request) (s : State), afterRequest r (afterRequest r s) = afterRequest r s) ∧
  (∀ (r : Request) (s : State), reqOp r = 0x05 → (afterRequest r s).t.isSome = (afterRequest r s).rh.isSome) ∧
  (∀ s : State, takeMove .readStatus s = .next s ∧ ∀ r, s.valid r = true → takeMove (.readResult r) s = .next s)

/-- Noninterference: what a request writes is fixed by the request alone, so no operation reads a result register, a flag or any
other state as an input (10_state.md section 2; 60_exceptions.md sections 1 and 4). -/
def Obligations.RequestsReadNoState : Prop :=
  ∀ r : Request,
    ∃ (e : Bool) (w : BitVec 2) (i : Bool) (m : Option Bool) (c : Option (Option Byte))
      (t h n : Option (Option Word32)),
      ∀ s : State, afterRequest r s =
        { err := e, which := w, ill := i, matchBit := m.getD s.matchBit, crc := c.getD s.crc, t := t.getD s.t,
          rh := h.getD s.rh, sn := n.getD s.sn, hostMoves := s.hostMoves }

/-- No request does nothing: each changes some state (43_other_classes.md section 2). -/
def Obligations.NoRequestIsNop : Prop := ∀ r : Request, ∃ s : State, afterRequest r s ≠ s

/-- The machine is the whole step written in one place, and STATUS its formula (43_other_classes.md section 3). -/
def Obligations.AgreesWithWholeStep : Prop :=
  ∀ (s : State) (r : Request), acceptRequest r s = .next (refStep s r) ∧ s.statusWord.toNat = refStatus s

/-- Requests are executed one at a time in the order presented, one step each, and the run has one result: the fold of the
requests (20_memory.md section 5; 70_reset_and_hazards.md section 5; the list of moves is the model's own, log entry 1). -/
def Obligations.RunIsFoldOfRequests : Prop :=
  ∀ (rs : List Request) (s : State),
    core.run rs.length { s with hostMoves := rs.map .present } = .next { afterRequests rs s with hostMoves := [] }

/-- Nothing clears `MATCH` except a `CHK` that fails or reset, and nothing invalidates `CRC` except reset
(43_other_classes.md section 2). -/
def Obligations.OnlyResetInvalidatesCrc : Prop :=
  ∀ s u : State, step s = .next u →
    (s.crc ≠ none → u.crc = none → ∃ later, s.hostMoves = .assertRst :: later) ∧
    (s.matchBit = true → u.matchBit = false →
      (∃ later, s.hostMoves = .assertRst :: later) ∨
      ∃ r later, s.hostMoves = .present r :: later ∧ reqOp r = 0x02 ∧ crc8 (reqB0 r) (reqB1 r) ≠ reqB2 r)

/-! ### The ports -/

/-- What the ports show: STATUS always, a register's value while it holds one; and while a request is in flight either the old
or the new state, the whole of it (30_encoding.md section 1, 70_reset_and_hazards.md section 4, 20_memory.md section 4;
which of the two is a free value, log entry 8). -/
def Obligations.PortsShowRegisters : Prop :=
  ∀ b : Block,
    (b.inFlight = none → b.shown = b.core ∧ b.outputs.reqReady = true) ∧
    (∀ p, b.inFlight = some p → (b.shown = b.core ∨ b.shown = afterRequest p.req b.core) ∧ b.outputs.reqReady = false) ∧
    b.outputs.status = b.shown.statusWord ∧ b.outputs.respValid = b.respValid ∧
    (∀ v, b.shown.crc = some v → b.outputs.crc = v) ∧ (∀ v, b.shown.t = some v → b.outputs.t = v) ∧
    (∀ v, b.shown.rh = some v → b.outputs.rh = v) ∧ (∀ v, b.shown.sn = some v → b.outputs.sn = v)

/-- The handshake: a request accepted by an idle block is busy, unseen and without `resp_valid` for `latency - 1` edges more,
whatever the inputs but reset; then `resp_valid` is 1, the registers show its results, and the next cycle without a request ends
`resp_valid` (30_encoding.md section 1, 70_reset_and_hazards.md sections 1 and 4; when the block is ready again is the model's
choice, log entry 9). -/
def Obligations.ResultsAfterLatency : Prop :=
  ∀ (latency : Nat) (b : Block) (i : Inputs) (js : List Inputs),
    1 ≤ latency → b.accepts i = true → (∀ j ∈ js, j.rst = false) →
    (js.length + 1 < latency →
      (b.cyclesWith latency (i :: js)).outputs.respValid = false ∧
      (b.cyclesWith latency (i :: js)).outputs.reqReady = false ∧
      (b.cyclesWith latency (i :: js)).core = b.core) ∧
    (js.length + 1 = latency →
      (b.cyclesWith latency (i :: js)).outputs.respValid = true ∧
      (b.cyclesWith latency (i :: js)).outputs.reqReady = true ∧
      (b.cyclesWith latency (i :: js)).shown = afterRequest i.req b.core ∧
      ∀ k : Inputs, k.rst = false → k.reqValid = false →
        ((b.cyclesWith latency (i :: js)).cycle latency k).outputs.respValid = false ∧
        ((b.cyclesWith latency (i :: js)).cycle latency k).core = afterRequest i.req b.core)
end

