-- ==== Sys2Proof/Laws/Arithmetic.lean ====
section
/-! SUPPORT. The functions of the checksum and of the decoders in the form that arithmetic works with: one lemma per function,
which later proofs cite instead of unfolding it. -/

namespace Sys2Proof.Machine

/-- `field_ok` as an equation (40_checksum.md R75). -/
theorem fieldOk_iff (d0 d1 c : Byte) : fieldOk d0 d1 c = true ↔ crc8 d0 d1 = c := by simp [fieldOk]

/-- The byte step sees only the xor of its arguments (40_checksum.md R71). -/
theorem crcStep_xor (c b : Byte) : crcStep c b = crcStep 0 (c ^^^ b) := by simp [crcStep]

/-- Floor division by a positive number is Lean's division (00_scope.md R7). -/
theorem fdiv_eq_ediv (a b : Int) (h : 0 ≤ b) : fdiv a b = a / b := Int.fdiv_eq_ediv_of_nonneg a h

theorem q16_eq (v : Rat) : q16 v = ⌊v * 65536 + 1 / 2⌋ := by simp [q16, Config.fracScale]

theorem q16Num_eq (n : Int) : q16Num n = n + (2 * n + 65535) / 131070 := by
  simp [q16Num, fdiv_eq_ediv, Config.rawDivisor]

theorem tempNum_eq (raw : Raw) : tempNum raw = 315 * (raw.toNat : Int) - 3211215 := by
  simp only [tempNum, Config.tempSpan, Config.tempOffset, Config.rawDivisor]
  ring

theorem humNum_eq (raw : Raw) : humNum raw = 125 * (raw.toNat : Int) - 393210 := by
  simp only [humNum, Config.humSpan, Config.humOffset, Config.rawDivisor]
  ring

theorem tempVal_eq (raw : Raw) : tempVal raw = -49 + 315 * (raw.toNat : Rat) / 65535 := by
  simp [tempVal, Config.tempSpan, Config.tempOffset, Config.rawDivisor]

theorem humPre_eq (raw : Raw) : humPre raw = -6 + 125 * (raw.toNat : Rat) / 65535 := by
  simp [humPre, Config.humSpan, Config.humOffset, Config.rawDivisor]

theorem tempFx_eq (raw : Raw) : tempFx raw = tempNum raw + (2 * tempNum raw + 65535) / 131070 := by
  rw [tempFx, q16Num_eq]

theorem humFx_eq (raw : Raw) :
    humFx raw = if humNum raw ≤ 0 then 0 else if 6553500 ≤ humNum raw then 6553600
      else humNum raw + (2 * humNum raw + 65535) / 131070 := by
  simp only [humFx, q16Num_eq, Config.humLow, Config.humHigh, Config.rawDivisor, Config.fracScale]
  norm_num

end Sys2Proof.Machine
end

