-- ==== Sys2Proof/Laws/Decode.lean ====
section
/-! SUPPORT. The fields of a packed request word, the word rebuilt from its fields, and the answers of the decoder. -/

namespace Sys2Proof

/-- A packed word as a number: each byte at its weight. -/
theorem packRequest_toNat (op b0 b1 b2 b3 b4 b5 : Byte) :
    (packRequest op b0 b1 b2 b3 b4 b5).toNat = op.toNat * 2 ^ 48 + b0.toNat * 2 ^ 40 + b1.toNat * 2 ^ 32
      + b2.toNat * 2 ^ 24 + b3.toNat * 2 ^ 16 + b4.toNat * 2 ^ 8 + b5.toNat := by
  have h0 := b0.isLt; have h1 := b1.isLt; have h2 := b2.isLt
  have h3 := b3.isLt; have h4 := b4.isLt; have h5 := b5.isLt
  change BitVec.toNat (w := 8 + 8 + 8 + 8 + 8 + 8 + 8) (op ++ b0 ++ b1 ++ b2 ++ b3 ++ b4 ++ b5) = _
  simp only [BitVec.toNat_append]
  rw [← Nat.shiftLeft_add_eq_or_of_lt (by omega), ← Nat.shiftLeft_add_eq_or_of_lt (by omega),
    ← Nat.shiftLeft_add_eq_or_of_lt (by omega), ← Nat.shiftLeft_add_eq_or_of_lt (by omega),
    ← Nat.shiftLeft_add_eq_or_of_lt (by omega), ← Nat.shiftLeft_add_eq_or_of_lt (by omega)]
  simp only [Nat.shiftLeft_eq]
  omega

/-- The field `op` as a number. -/
theorem reqOp_toNat (r : Request) : (reqOp r).toNat = r.toNat / 2 ^ 48 % 2 ^ 8 := by
  simp [reqOp, BitVec.extractLsb'_toNat, Nat.shiftRight_eq_div_pow]

@[simp] theorem reqOp_pack (op b0 b1 b2 b3 b4 b5 : Byte) : reqOp (packRequest op b0 b1 b2 b3 b4 b5) = op := by
  have h := op.isLt; have h0 := b0.isLt; have h1 := b1.isLt; have h2 := b2.isLt
  have h3 := b3.isLt; have h4 := b4.isLt; have h5 := b5.isLt
  apply BitVec.eq_of_toNat_eq
  rw [reqOp_toNat, packRequest_toNat]
  omega

/-- The field `b0` as a number. -/
theorem reqB0_toNat (r : Request) : (reqB0 r).toNat = r.toNat / 2 ^ 40 % 2 ^ 8 := by
  simp [reqB0, BitVec.extractLsb'_toNat, Nat.shiftRight_eq_div_pow]

@[simp] theorem reqB0_pack (op b0 b1 b2 b3 b4 b5 : Byte) : reqB0 (packRequest op b0 b1 b2 b3 b4 b5) = b0 := by
  have h := op.isLt; have h0 := b0.isLt; have h1 := b1.isLt; have h2 := b2.isLt
  have h3 := b3.isLt; have h4 := b4.isLt; have h5 := b5.isLt
  apply BitVec.eq_of_toNat_eq
  rw [reqB0_toNat, packRequest_toNat]
  omega

/-- The field `b1` as a number. -/
theorem reqB1_toNat (r : Request) : (reqB1 r).toNat = r.toNat / 2 ^ 32 % 2 ^ 8 := by
  simp [reqB1, BitVec.extractLsb'_toNat, Nat.shiftRight_eq_div_pow]

@[simp] theorem reqB1_pack (op b0 b1 b2 b3 b4 b5 : Byte) : reqB1 (packRequest op b0 b1 b2 b3 b4 b5) = b1 := by
  have h := op.isLt; have h0 := b0.isLt; have h1 := b1.isLt; have h2 := b2.isLt
  have h3 := b3.isLt; have h4 := b4.isLt; have h5 := b5.isLt
  apply BitVec.eq_of_toNat_eq
  rw [reqB1_toNat, packRequest_toNat]
  omega

/-- The field `b2` as a number. -/
theorem reqB2_toNat (r : Request) : (reqB2 r).toNat = r.toNat / 2 ^ 24 % 2 ^ 8 := by
  simp [reqB2, BitVec.extractLsb'_toNat, Nat.shiftRight_eq_div_pow]

@[simp] theorem reqB2_pack (op b0 b1 b2 b3 b4 b5 : Byte) : reqB2 (packRequest op b0 b1 b2 b3 b4 b5) = b2 := by
  have h := op.isLt; have h0 := b0.isLt; have h1 := b1.isLt; have h2 := b2.isLt
  have h3 := b3.isLt; have h4 := b4.isLt; have h5 := b5.isLt
  apply BitVec.eq_of_toNat_eq
  rw [reqB2_toNat, packRequest_toNat]
  omega

/-- The field `b3` as a number. -/
theorem reqB3_toNat (r : Request) : (reqB3 r).toNat = r.toNat / 2 ^ 16 % 2 ^ 8 := by
  simp [reqB3, BitVec.extractLsb'_toNat, Nat.shiftRight_eq_div_pow]

@[simp] theorem reqB3_pack (op b0 b1 b2 b3 b4 b5 : Byte) : reqB3 (packRequest op b0 b1 b2 b3 b4 b5) = b3 := by
  have h := op.isLt; have h0 := b0.isLt; have h1 := b1.isLt; have h2 := b2.isLt
  have h3 := b3.isLt; have h4 := b4.isLt; have h5 := b5.isLt
  apply BitVec.eq_of_toNat_eq
  rw [reqB3_toNat, packRequest_toNat]
  omega

/-- The field `b4` as a number. -/
theorem reqB4_toNat (r : Request) : (reqB4 r).toNat = r.toNat / 2 ^ 8 % 2 ^ 8 := by
  simp [reqB4, BitVec.extractLsb'_toNat, Nat.shiftRight_eq_div_pow]

@[simp] theorem reqB4_pack (op b0 b1 b2 b3 b4 b5 : Byte) : reqB4 (packRequest op b0 b1 b2 b3 b4 b5) = b4 := by
  have h := op.isLt; have h0 := b0.isLt; have h1 := b1.isLt; have h2 := b2.isLt
  have h3 := b3.isLt; have h4 := b4.isLt; have h5 := b5.isLt
  apply BitVec.eq_of_toNat_eq
  rw [reqB4_toNat, packRequest_toNat]
  omega

/-- The field `b5` as a number. -/
theorem reqB5_toNat (r : Request) : (reqB5 r).toNat = r.toNat / 2 ^ 0 % 2 ^ 8 := by
  simp [reqB5, BitVec.extractLsb'_toNat, Nat.shiftRight_eq_div_pow]

@[simp] theorem reqB5_pack (op b0 b1 b2 b3 b4 b5 : Byte) : reqB5 (packRequest op b0 b1 b2 b3 b4 b5) = b5 := by
  have h := op.isLt; have h0 := b0.isLt; have h1 := b1.isLt; have h2 := b2.isLt
  have h3 := b3.isLt; have h4 := b4.isLt; have h5 := b5.isLt
  apply BitVec.eq_of_toNat_eq
  rw [reqB5_toNat, packRequest_toNat]
  omega

/-- A word is rebuilt from its seven fields. -/
theorem packRequest_fields (r : Request) :
    packRequest (reqOp r) (reqB0 r) (reqB1 r) (reqB2 r) (reqB3 r) (reqB4 r) (reqB5 r) = r := by
  have h := r.isLt
  apply BitVec.eq_of_toNat_eq
  rw [packRequest_toNat, reqOp_toNat, reqB0_toNat, reqB1_toNat, reqB2_toNat, reqB3_toNat, reqB4_toNat, reqB5_toNat]
  omega

theorem decode_crc8 (r : Request) (h : reqOp r = 0x01) : decode r = .ok (.crc8 (reqB0 r) (reqB1 r)) := by
  simp [decode, h]

theorem decode_chk (r : Request) (h : reqOp r = 0x02) : decode r = .ok (.chk (reqB0 r) (reqB1 r) (reqB2 r)) := by
  simp [decode, h]

theorem decode_dect (r : Request) (h : reqOp r = 0x03) : decode r = .ok (.dect (reqB0 r) (reqB1 r)) := by
  simp [decode, h]

theorem decode_decrh (r : Request) (h : reqOp r = 0x04) : decode r = .ok (.decrh (reqB0 r) (reqB1 r)) := by
  simp [decode, h]

theorem decode_meas (r : Request) (h : reqOp r = 0x05) :
    decode r = .ok (.meas (reqB0 r) (reqB1 r) (reqB2 r) (reqB3 r) (reqB4 r) (reqB5 r)) := by
  simp [decode, h]

theorem decode_ser (r : Request) (h : reqOp r = 0x06) :
    decode r = .ok (.ser (reqB0 r) (reqB1 r) (reqB2 r) (reqB3 r) (reqB4 r) (reqB5 r)) := by
  simp [decode, h]

theorem decode_illegal (r : Request) (h : reqOp r ∉ legalOps) : decode r = .error (.illegalOpcode (reqOp r)) := by
  have key : ∀ op : Byte, op ∉ legalOps → ∀ n ∈ [1, 2, 3, 4, 5, 6], op.toNat ≠ n := by decide
  have hk := key _ h
  unfold decode
  split
  · exact absurd ‹_› (hk 1 (by decide))
  · exact absurd ‹_› (hk 2 (by decide))
  · exact absurd ‹_› (hk 3 (by decide))
  · exact absurd ‹_› (hk 4 (by decide))
  · exact absurd ‹_› (hk 5 (by decide))
  · exact absurd ‹_› (hk 6 (by decide))
  · rfl

/-- Every opcode is one of the six legal ones or illegal. -/
theorem op_cases (op : Byte) :
    op = 0x01 ∨ op = 0x02 ∨ op = 0x03 ∨ op = 0x04 ∨ op = 0x05 ∨ op = 0x06 ∨ op ∉ legalOps := by
  by_cases h : op ∈ legalOps
  · simp [legalOps] at h
    tauto
  · tauto

end Sys2Proof
end

