-- ==== Sys2Proof/Laws/State.lean ====
section
/-! SUPPORT. What each operation of Machine/Ops.lean writes and what it leaves: one lemma per field per operation, true by
`rfl`, so that no later proof unfolds a record update. -/

namespace Sys2Proof.Machine

@[simp] theorem State.setOutcome_err (s : State) (e : Bool) (w : BitVec 2) (i : Bool) : (s.setOutcome e w i).err = e := rfl
@[simp] theorem State.setOutcome_which (s : State) (e : Bool) (w : BitVec 2) (i : Bool) : (s.setOutcome e w i).which = w := rfl
@[simp] theorem State.setOutcome_ill (s : State) (e : Bool) (w : BitVec 2) (i : Bool) : (s.setOutcome e w i).ill = i := rfl
@[simp] theorem State.setOutcome_matchBit (s : State) (e : Bool) (w : BitVec 2) (i : Bool) : (s.setOutcome e w i).matchBit = s.matchBit := rfl
@[simp] theorem State.setOutcome_crc (s : State) (e : Bool) (w : BitVec 2) (i : Bool) : (s.setOutcome e w i).crc = s.crc := rfl
@[simp] theorem State.setOutcome_t (s : State) (e : Bool) (w : BitVec 2) (i : Bool) : (s.setOutcome e w i).t = s.t := rfl
@[simp] theorem State.setOutcome_rh (s : State) (e : Bool) (w : BitVec 2) (i : Bool) : (s.setOutcome e w i).rh = s.rh := rfl
@[simp] theorem State.setOutcome_sn (s : State) (e : Bool) (w : BitVec 2) (i : Bool) : (s.setOutcome e w i).sn = s.sn := rfl
@[simp] theorem State.setOutcome_hostMoves (s : State) (e : Bool) (w : BitVec 2) (i : Bool) : (s.setOutcome e w i).hostMoves = s.hostMoves := rfl

@[simp] theorem State.setMatch_err (s : State) (b : Bool) : (s.setMatch b).err = s.err := rfl
@[simp] theorem State.setMatch_which (s : State) (b : Bool) : (s.setMatch b).which = s.which := rfl
@[simp] theorem State.setMatch_ill (s : State) (b : Bool) : (s.setMatch b).ill = s.ill := rfl
@[simp] theorem State.setMatch_matchBit (s : State) (b : Bool) : (s.setMatch b).matchBit = b := rfl
@[simp] theorem State.setMatch_crc (s : State) (b : Bool) : (s.setMatch b).crc = s.crc := rfl
@[simp] theorem State.setMatch_t (s : State) (b : Bool) : (s.setMatch b).t = s.t := rfl
@[simp] theorem State.setMatch_rh (s : State) (b : Bool) : (s.setMatch b).rh = s.rh := rfl
@[simp] theorem State.setMatch_sn (s : State) (b : Bool) : (s.setMatch b).sn = s.sn := rfl
@[simp] theorem State.setMatch_hostMoves (s : State) (b : Bool) : (s.setMatch b).hostMoves = s.hostMoves := rfl

@[simp] theorem State.writeCrc_err (s : State) (v : Byte) : (s.writeCrc v).err = s.err := rfl
@[simp] theorem State.writeCrc_which (s : State) (v : Byte) : (s.writeCrc v).which = s.which := rfl
@[simp] theorem State.writeCrc_ill (s : State) (v : Byte) : (s.writeCrc v).ill = s.ill := rfl
@[simp] theorem State.writeCrc_matchBit (s : State) (v : Byte) : (s.writeCrc v).matchBit = s.matchBit := rfl
@[simp] theorem State.writeCrc_crc (s : State) (v : Byte) : (s.writeCrc v).crc = some v := rfl
@[simp] theorem State.writeCrc_t (s : State) (v : Byte) : (s.writeCrc v).t = s.t := rfl
@[simp] theorem State.writeCrc_rh (s : State) (v : Byte) : (s.writeCrc v).rh = s.rh := rfl
@[simp] theorem State.writeCrc_sn (s : State) (v : Byte) : (s.writeCrc v).sn = s.sn := rfl
@[simp] theorem State.writeCrc_hostMoves (s : State) (v : Byte) : (s.writeCrc v).hostMoves = s.hostMoves := rfl

@[simp] theorem State.writeT_err (s : State) (v : Word32) : (s.writeT v).err = s.err := rfl
@[simp] theorem State.writeT_which (s : State) (v : Word32) : (s.writeT v).which = s.which := rfl
@[simp] theorem State.writeT_ill (s : State) (v : Word32) : (s.writeT v).ill = s.ill := rfl
@[simp] theorem State.writeT_matchBit (s : State) (v : Word32) : (s.writeT v).matchBit = s.matchBit := rfl
@[simp] theorem State.writeT_crc (s : State) (v : Word32) : (s.writeT v).crc = s.crc := rfl
@[simp] theorem State.writeT_t (s : State) (v : Word32) : (s.writeT v).t = some v := rfl
@[simp] theorem State.writeT_rh (s : State) (v : Word32) : (s.writeT v).rh = s.rh := rfl
@[simp] theorem State.writeT_sn (s : State) (v : Word32) : (s.writeT v).sn = s.sn := rfl
@[simp] theorem State.writeT_hostMoves (s : State) (v : Word32) : (s.writeT v).hostMoves = s.hostMoves := rfl

@[simp] theorem State.writeRh_err (s : State) (v : Word32) : (s.writeRh v).err = s.err := rfl
@[simp] theorem State.writeRh_which (s : State) (v : Word32) : (s.writeRh v).which = s.which := rfl
@[simp] theorem State.writeRh_ill (s : State) (v : Word32) : (s.writeRh v).ill = s.ill := rfl
@[simp] theorem State.writeRh_matchBit (s : State) (v : Word32) : (s.writeRh v).matchBit = s.matchBit := rfl
@[simp] theorem State.writeRh_crc (s : State) (v : Word32) : (s.writeRh v).crc = s.crc := rfl
@[simp] theorem State.writeRh_t (s : State) (v : Word32) : (s.writeRh v).t = s.t := rfl
@[simp] theorem State.writeRh_rh (s : State) (v : Word32) : (s.writeRh v).rh = some v := rfl
@[simp] theorem State.writeRh_sn (s : State) (v : Word32) : (s.writeRh v).sn = s.sn := rfl
@[simp] theorem State.writeRh_hostMoves (s : State) (v : Word32) : (s.writeRh v).hostMoves = s.hostMoves := rfl

@[simp] theorem State.writeSn_err (s : State) (v : Word32) : (s.writeSn v).err = s.err := rfl
@[simp] theorem State.writeSn_which (s : State) (v : Word32) : (s.writeSn v).which = s.which := rfl
@[simp] theorem State.writeSn_ill (s : State) (v : Word32) : (s.writeSn v).ill = s.ill := rfl
@[simp] theorem State.writeSn_matchBit (s : State) (v : Word32) : (s.writeSn v).matchBit = s.matchBit := rfl
@[simp] theorem State.writeSn_crc (s : State) (v : Word32) : (s.writeSn v).crc = s.crc := rfl
@[simp] theorem State.writeSn_t (s : State) (v : Word32) : (s.writeSn v).t = s.t := rfl
@[simp] theorem State.writeSn_rh (s : State) (v : Word32) : (s.writeSn v).rh = s.rh := rfl
@[simp] theorem State.writeSn_sn (s : State) (v : Word32) : (s.writeSn v).sn = some v := rfl
@[simp] theorem State.writeSn_hostMoves (s : State) (v : Word32) : (s.writeSn v).hostMoves = s.hostMoves := rfl

@[simp] theorem State.invalidateMeasurement_err (s : State) : s.invalidateMeasurement.err = s.err := rfl
@[simp] theorem State.invalidateMeasurement_which (s : State) : s.invalidateMeasurement.which = s.which := rfl
@[simp] theorem State.invalidateMeasurement_ill (s : State) : s.invalidateMeasurement.ill = s.ill := rfl
@[simp] theorem State.invalidateMeasurement_matchBit (s : State) : s.invalidateMeasurement.matchBit = s.matchBit := rfl
@[simp] theorem State.invalidateMeasurement_crc (s : State) : s.invalidateMeasurement.crc = s.crc := rfl
@[simp] theorem State.invalidateMeasurement_t (s : State) : s.invalidateMeasurement.t = none := rfl
@[simp] theorem State.invalidateMeasurement_rh (s : State) : s.invalidateMeasurement.rh = none := rfl
@[simp] theorem State.invalidateMeasurement_sn (s : State) : s.invalidateMeasurement.sn = s.sn := rfl
@[simp] theorem State.invalidateMeasurement_hostMoves (s : State) : s.invalidateMeasurement.hostMoves = s.hostMoves := rfl

@[simp] theorem State.invalidateSerial_err (s : State) : s.invalidateSerial.err = s.err := rfl
@[simp] theorem State.invalidateSerial_which (s : State) : s.invalidateSerial.which = s.which := rfl
@[simp] theorem State.invalidateSerial_ill (s : State) : s.invalidateSerial.ill = s.ill := rfl
@[simp] theorem State.invalidateSerial_matchBit (s : State) : s.invalidateSerial.matchBit = s.matchBit := rfl
@[simp] theorem State.invalidateSerial_crc (s : State) : s.invalidateSerial.crc = s.crc := rfl
@[simp] theorem State.invalidateSerial_t (s : State) : s.invalidateSerial.t = s.t := rfl
@[simp] theorem State.invalidateSerial_rh (s : State) : s.invalidateSerial.rh = s.rh := rfl
@[simp] theorem State.invalidateSerial_sn (s : State) : s.invalidateSerial.sn = none := rfl
@[simp] theorem State.invalidateSerial_hostMoves (s : State) : s.invalidateSerial.hostMoves = s.hostMoves := rfl

@[simp] theorem State.setMoves_err (s : State) (l : List HostMove) : (s.setMoves l).err = s.err := rfl
@[simp] theorem State.setMoves_which (s : State) (l : List HostMove) : (s.setMoves l).which = s.which := rfl
@[simp] theorem State.setMoves_ill (s : State) (l : List HostMove) : (s.setMoves l).ill = s.ill := rfl
@[simp] theorem State.setMoves_matchBit (s : State) (l : List HostMove) : (s.setMoves l).matchBit = s.matchBit := rfl
@[simp] theorem State.setMoves_crc (s : State) (l : List HostMove) : (s.setMoves l).crc = s.crc := rfl
@[simp] theorem State.setMoves_t (s : State) (l : List HostMove) : (s.setMoves l).t = s.t := rfl
@[simp] theorem State.setMoves_rh (s : State) (l : List HostMove) : (s.setMoves l).rh = s.rh := rfl
@[simp] theorem State.setMoves_sn (s : State) (l : List HostMove) : (s.setMoves l).sn = s.sn := rfl
@[simp] theorem State.setMoves_hostMoves (s : State) (l : List HostMove) : (s.setMoves l).hostMoves = l := rfl

@[simp] theorem State.succeed_err (s : State) : s.succeed.err = false := rfl
@[simp] theorem State.succeed_which (s : State) : s.succeed.which = 0 := rfl
@[simp] theorem State.succeed_ill (s : State) : s.succeed.ill = false := rfl
@[simp] theorem State.succeed_matchBit (s : State) : s.succeed.matchBit = s.matchBit := rfl
@[simp] theorem State.succeed_crc (s : State) : s.succeed.crc = s.crc := rfl
@[simp] theorem State.succeed_t (s : State) : s.succeed.t = s.t := rfl
@[simp] theorem State.succeed_rh (s : State) : s.succeed.rh = s.rh := rfl
@[simp] theorem State.succeed_sn (s : State) : s.succeed.sn = s.sn := rfl
@[simp] theorem State.succeed_hostMoves (s : State) : s.succeed.hostMoves = s.hostMoves := rfl

@[simp] theorem State.reset_err : State.reset.err = false := rfl
@[simp] theorem State.reset_which : State.reset.which = 0 := rfl
@[simp] theorem State.reset_ill : State.reset.ill = false := rfl
@[simp] theorem State.reset_matchBit : State.reset.matchBit = false := rfl
@[simp] theorem State.reset_crc : State.reset.crc = none := rfl
@[simp] theorem State.reset_t : State.reset.t = none := rfl
@[simp] theorem State.reset_rh : State.reset.rh = none := rfl
@[simp] theorem State.reset_sn : State.reset.sn = none := rfl
@[simp] theorem State.reset_hostMoves : State.reset.hostMoves = [] := rfl

@[simp] theorem State.assertRst_err (s : State) : s.assertRst.err = false := rfl
@[simp] theorem State.assertRst_which (s : State) : s.assertRst.which = 0 := rfl
@[simp] theorem State.assertRst_ill (s : State) : s.assertRst.ill = false := rfl
@[simp] theorem State.assertRst_matchBit (s : State) : s.assertRst.matchBit = false := rfl
@[simp] theorem State.assertRst_crc (s : State) : s.assertRst.crc = none := rfl
@[simp] theorem State.assertRst_t (s : State) : s.assertRst.t = none := rfl
@[simp] theorem State.assertRst_rh (s : State) : s.assertRst.rh = none := rfl
@[simp] theorem State.assertRst_sn (s : State) : s.assertRst.sn = none := rfl
@[simp] theorem State.assertRst_hostMoves (s : State) : s.assertRst.hostMoves = s.hostMoves := rfl

/-- Two states with equal fields are equal. -/
theorem State.ext_fields {s u : State} (h1 : s.err = u.err) (h2 : s.which = u.which) (h3 : s.ill = u.ill)
    (h4 : s.matchBit = u.matchBit) (h5 : s.crc = u.crc) (h6 : s.t = u.t) (h7 : s.rh = u.rh) (h8 : s.sn = u.sn)
    (h9 : s.hostMoves = u.hostMoves) : s = u := by
  cases s; cases u; simp_all

end Sys2Proof.Machine
end

