-- ==== Sys2Proof/Laws/Machine.lean ====
section
/-! SUPPORT. What each shared operation can do, said once: raising an error, choosing the failing quantity, reading a register,
accepting a request, taking a move. The statements' proofs cite these instead of unfolding. -/

namespace Sys2Proof.Machine

/-- `ChecksumError` in a measurement frame: all it writes (60_exceptions.md R136). -/
theorem raise_temperature (s : State) :
    s.raise (.checksum .temperature) = { s with t := none, rh := none, err := true, which := 2, ill := false } := rfl

theorem raise_humidity (s : State) :
    s.raise (.checksum .humidity) = { s with t := none, rh := none, err := true, which := 3, ill := false } := rfl

/-- `ChecksumError` in a serial frame: all it writes (60_exceptions.md R136). -/
theorem raise_serialHalf1 (s : State) :
    s.raise (.checksum .serialHalf1) = { s with sn := none, err := true, which := 0, ill := false } := rfl

theorem raise_serialHalf2 (s : State) :
    s.raise (.checksum .serialHalf2) = { s with sn := none, err := true, which := 1, ill := false } := rfl

/-- `IllegalOperation`: all it writes (60_exceptions.md R136). -/
theorem raise_illegal (s : State) :
    s.raise .illegalOperation = { s with err := false, which := 0, ill := true } := rfl

/-- No error touches `MATCH`, `CRC` or the host's moves. -/
theorem raise_frame (s : State) (e : OpError) :
    (s.raise e).matchBit = s.matchBit ∧ (s.raise e).crc = s.crc ∧ (s.raise e).hostMoves = s.hostMoves := by
  rcases e with q | _
  · cases q <;> exact ⟨rfl, rfl, rfl⟩
  · exact ⟨rfl, rfl, rfl⟩

@[simp] theorem ofCode_code (q : Quantity) : Quantity.ofCode q.code = q := by cases q <;> rfl

@[simp] theorem code_ofCode (c : BitVec 2) : (Quantity.ofCode c).code = c := by revert c; decide

/-- The three answers of the frame check (60_exceptions.md R135). -/
theorem firstFailing_cases (q1 q2 : Quantity) (b0 b1 b2 b3 b4 b5 : Byte) :
    (fieldOk b0 b1 b2 = true ∧ fieldOk b3 b4 b5 = true ∧ firstFailing q1 q2 b0 b1 b2 b3 b4 b5 = none) ∨
    (fieldOk b0 b1 b2 = true ∧ fieldOk b3 b4 b5 = false ∧ firstFailing q1 q2 b0 b1 b2 b3 b4 b5 = some q2) ∨
    (fieldOk b0 b1 b2 = false ∧ firstFailing q1 q2 b0 b1 b2 b3 b4 b5 = some q1) := by
  unfold firstFailing
  cases fieldOk b0 b1 b2 <;> cases fieldOk b3 b4 b5 <;> simp

theorem valueOf_ok_iff {α : Type} (r : ResultReg) (o : Option α) (v : α) : valueOf r o = .ok v ↔ o = some v := by
  cases o <;> simp [valueOf]

/-- Every operation completes, in every state (60_exceptions.md R130), and leaves the host's moves alone. -/
theorem exec_next (i : Instr) (s : State) : ∃ u, exec i s = .next u ∧ u.hostMoves = s.hostMoves := by
  cases i with
  | crc8 b0 b1 => exact ⟨_, rfl, rfl⟩
  | chk b0 b1 b2 => exact ⟨_, rfl, rfl⟩
  | dect b0 b1 => exact ⟨_, rfl, rfl⟩
  | decrh b0 b1 => exact ⟨_, rfl, rfl⟩
  | meas b0 b1 b2 b3 b4 b5 =>
    simp only [exec, execMeas]
    rcases firstFailing .temperature .humidity b0 b1 b2 b3 b4 b5 with _ | q
    · exact ⟨_, rfl, rfl⟩
    · exact ⟨_, rfl, (raise_frame s (.checksum q)).2.2⟩
  | ser b0 b1 b2 b3 b4 b5 =>
    simp only [exec, execSer]
    rcases firstFailing .serialHalf1 .serialHalf2 b0 b1 b2 b3 b4 b5 with _ | q
    · exact ⟨_, rfl, rfl⟩
    · exact ⟨_, rfl, (raise_frame s (.checksum q)).2.2⟩

/-- A legal request is executed. -/
theorem acceptRequest_legal {r : Request} {i : Instr} (h : decode r = .ok i) (s : State) :
    acceptRequest r s = exec i s := by simp [acceptRequest, h]

/-- An illegal request raises `IllegalOperation`. -/
theorem acceptRequest_illegal {r : Request} (h : reqOp r ∉ legalOps) (s : State) :
    acceptRequest r s = .next (s.raise .illegalOperation) := by
  simp [acceptRequest, decode_illegal r h]

/-- Every request has a next state, which `afterRequest` names, and leaves the host's moves alone. -/
theorem acceptRequest_eq (r : Request) (s : State) :
    acceptRequest r s = .next (afterRequest r s) ∧ (afterRequest r s).hostMoves = s.hostMoves := by
  have key : ∃ u, acceptRequest r s = .next u ∧ u.hostMoves = s.hostMoves := by
    cases h : decode r with
    | ok i => rw [acceptRequest_legal h]; exact exec_next i s
    | error e =>
      cases e
      exact ⟨s.raise .illegalOperation, by simp only [acceptRequest, h], (raise_frame s _).2.2⟩
  obtain ⟨u, hu, hm⟩ := key
  have ha : afterRequest r s = u := by simp [afterRequest, hu]
  exact ⟨by rw [ha]; exact hu, by rw [ha]; exact hm⟩

/-- Executing the operation a request decodes to gives the state `afterRequest` names. -/
theorem exec_afterRequest {r : Request} {i : Instr} (h : decode r = .ok i) (s : State) :
    exec i s = .next (afterRequest r s) := by
  rw [← acceptRequest_legal h]
  exact (acceptRequest_eq r s).1

/-- After an illegal request (30_encoding.md R57). -/
theorem afterRequest_illegal {r : Request} (h : reqOp r ∉ legalOps) (s : State) :
    afterRequest r s = s.raise .illegalOperation := by
  simp [afterRequest, acceptRequest_illegal h]

/-- What a step can do: nothing, a request, a reset, a read; and the one way it faults. -/
theorem advance_cases (s : State) :
    (s.hostMoves = [] ∧ advance s = .next s) ∨
    (∃ r later, s.hostMoves = .present r :: later ∧ advance s = .next (afterRequest r (s.setMoves later))) ∨
    (∃ later, s.hostMoves = .assertRst :: later ∧ advance s = .next (s.setMoves later).assertRst) ∨
    (∃ later, s.hostMoves = .readStatus :: later ∧ advance s = .next (s.setMoves later)) ∨
    (∃ r later, s.hostMoves = .readResult r :: later ∧ s.valid r = true ∧ advance s = .next (s.setMoves later)) ∨
    (∃ r later, s.hostMoves = .readResult r :: later ∧ s.valid r = false ∧ advance s = .fault (.readOfNoValue r)) := by
  unfold advance
  rcases hm : s.hostMoves with _ | ⟨m, later⟩
  · simp
  · cases m with
    | present r => simp [takeMove, (acceptRequest_eq r (s.setMoves later)).1]
    | assertRst => simp [takeMove]
    | readStatus => simp [takeMove]
    | readResult r =>
      have hv : (s.setMoves later).valid r = s.valid r := by cases r <;> rfl
      cases h : s.valid r <;> simp [takeMove, hv, h]

/-- What every step keeps, every run keeps. -/
theorem run_keeps {P : State → Prop} (keep : ∀ s u, P s → step s = .next u → P u) :
    ∀ (n : Nat) (s u : State), P s → core.run n s = .next u → P u := by
  intro n
  induction n with
  | zero => intro s u hs h; cases h; exact hs
  | succ n ih =>
    intro s u hs h
    simp only [Host.Core.run] at h
    split at h
    · next v hv => exact ih v u (keep s v hs hv) h
    · cases h
    · cases h

end Sys2Proof.Machine
end

