-- ==== Sys2Proof/Laws/PerInstr.lean ====
section
/-! SUPPORT. The statement made for each operation of the opcode map, about it as syntax: its canonical encoding
(30_encoding.md R52, R53, R55). -/

namespace Sys2Proof.Laws.CanonicalEncoding

/-- The operation is well formed, its encoding has the opcode its row matches, every operand byte it reads stands at its own
place, and every place it does not read holds `0x00`. -/
def Statement (i : Instr) : Prop :=
  i.wf = true ∧ reqOp (encode i) = reqOp (rowMatch i) ∧
    [reqB0 (encode i), reqB1 (encode i), reqB2 (encode i), reqB3 (encode i), reqB4 (encode i), reqB5 (encode i)] =
      match i with
      | .crc8 b0 b1 => [b0, b1, 0, 0, 0, 0]
      | .chk b0 b1 b2 => [b0, b1, b2, 0, 0, 0]
      | .dect b0 b1 => [b0, b1, 0, 0, 0, 0]
      | .decrh b0 b1 => [b0, b1, 0, 0, 0, 0]
      | .meas b0 b1 b2 b3 b4 b5 => [b0, b1, b2, b3, b4, b5]
      | .ser b0 b1 b2 b3 b4 b5 => [b0, b1, b2, b3, b4, b5]

theorem crc8 (b0 b1 : Byte) : Statement (.crc8 b0 b1) := by
  refine ⟨rfl, ?_, by simp [encode]⟩
  simp only [encode, rowMatch, reqOp_pack]
  decide

theorem chk (b0 b1 b2 : Byte) : Statement (.chk b0 b1 b2) := by
  refine ⟨rfl, ?_, by simp [encode]⟩
  simp only [encode, rowMatch, reqOp_pack]
  decide

theorem dect (b0 b1 : Byte) : Statement (.dect b0 b1) := by
  refine ⟨rfl, ?_, by simp [encode]⟩
  simp only [encode, rowMatch, reqOp_pack]
  decide

theorem decrh (b0 b1 : Byte) : Statement (.decrh b0 b1) := by
  refine ⟨rfl, ?_, by simp [encode]⟩
  simp only [encode, rowMatch, reqOp_pack]
  decide

theorem meas (b0 b1 b2 b3 b4 b5 : Byte) : Statement (.meas b0 b1 b2 b3 b4 b5) := by
  refine ⟨rfl, ?_, by simp [encode]⟩
  simp only [encode, rowMatch, reqOp_pack]
  decide

theorem ser (b0 b1 b2 b3 b4 b5 : Byte) : Statement (.ser b0 b1 b2 b3 b4 b5) := by
  refine ⟨rfl, ?_, by simp [encode]⟩
  simp only [encode, rowMatch, reqOp_pack]
  decide

end Sys2Proof.Laws.CanonicalEncoding
end

