-- ==== Sys2Proof/Laws/Ports.lean ====
section
/-! SUPPORT. What one rising edge can do to the block at its ports, said once. -/

namespace Sys2Proof.Machine

/-- The four things an edge can do: reset, count a busy block down, accept a request, or nothing. -/
theorem cycle_cases (latency : Nat) (i : Inputs) (b : Block) :
    (i.rst = true ∧ b.cycle latency i =
      { core := b.core.assertRst, inFlight := none, respValid := false, cycles := b.cycles + 1 }) ∨
    (∃ p, i.rst = false ∧ b.inFlight = some p ∧ b.cycle latency i = b.countdown p.req (p.left - 1)) ∨
    (i.rst = false ∧ b.inFlight = none ∧ b.accepts i = true ∧ b.cycle latency i = b.countdown i.req (latency - 1)) ∨
    (i.rst = false ∧ b.inFlight = none ∧ b.accepts i = false ∧
      b.cycle latency i = { b with respValid := false, cycles := b.cycles + 1 }) := by
  unfold Block.cycle
  cases hr : i.rst <;> rcases hf : b.inFlight with _ | p <;> cases ha : b.accepts i <;> simp

/-- The last edge of a request completes it. -/
theorem countdown_zero (b : Block) (r : Request) : b.countdown r 0 = b.complete r := by simp [Block.countdown]

/-- An earlier edge leaves the block busy and its state alone. -/
theorem countdown_pos (b : Block) (r : Request) {n : Nat} (h : n ≠ 0) :
    b.countdown r n =
      { b with inFlight := some { req := r, left := n }, respValid := false, cycles := b.cycles + 1 } := by
  simp [Block.countdown, h]

/-- A list of edges is one edge and then the rest. -/
theorem cyclesWith_cons (latency : Nat) (i : Inputs) (is : List Inputs) (b : Block) :
    b.cyclesWith latency (i :: is) = (b.cycle latency i).cyclesWith latency is := rfl

/-- The ports show the old state or the whole new one. -/
theorem shown_cases (b : Block) :
    b.shown = b.core ∨ ∃ p, b.inFlight = some p ∧ b.shown = afterRequest p.req b.core := by
  unfold Block.shown
  rcases b.inFlight with _ | p
  · exact .inl rfl
  · cases Config.showsNew b.cycles
    · exact .inl rfl
    · exact .inr ⟨p, rfl, rfl⟩

end Sys2Proof.Machine
end

