-- ==== Sys2Proof/Tests/Slice0.lean ====
section
/-! SUPPORT. Tests. Every expected value is taken from the spec: the examples of its operation rules, 30_encoding.md R61 and the
vectors of 95_test_vectors.md, named at each test. Then a witness for the hypotheses of every statement that has some. -/

namespace Sys2Proof.Tests

open Sys2Proof.Machine

-- One theorem after another: the kernel evaluations below would otherwise each hold a thread of their own.
set_option Elab.async false

/-- The state after one request from reset. -/
def fromReset (r : Request) : State := afterRequest r State.reset

/-- The next state of one step, if it has one. -/
def stepTo (s : State) : Option State :=
  match step s with
  | .next u => some u
  | .fault _ => none
  | .refused _ => none

theorem step_of_stepTo {s u : State} (h : stepTo s = some u) : step s = .next u := by
  unfold stepTo at h
  split at h <;> simp_all

/-- The fault of one step, if it faults. -/
def stepFault (s : State) : Option Fault :=
  match step s with
  | .next _ => none
  | .fault f => some f
  | .refused _ => none

/-- Reset, with these moves of the host to come. -/
def withMoves (l : List HostMove) : State := State.reset.setMoves l

/-! ### Well-formedness (R59): an ill-formed line for each check, which the check refuses -/

theorem test_wf_accepts : SourceLine.wf { word := ['C', 'H', 'K'], operands := [0x64, 44, 255] } = true := by decide

theorem test_wf_unknown_mnemonic :
    SourceLine.mnemonicKnown { word := ['N', 'O', 'P'], operands := [] } = false ∧
    SourceLine.wf { word := ['N', 'O', 'P'], operands := [] } = false := by decide

theorem test_wf_wrong_count :
    SourceLine.countRight { word := ['C', 'H', 'K'], operands := [1, 2] } = false ∧
    SourceLine.wf { word := ['C', 'H', 'K'], operands := [1, 2] } = false := by decide

theorem test_wf_byte_out_of_range :
    SourceLine.bytesInRange { word := ['D', 'E', 'C', 'T'], operands := [0, 256] } = false ∧
    SourceLine.wf { word := ['D', 'E', 'C', 'T'], operands := [0, 256] } = false := by decide

/-! ### Decoding: words written out bit by bit from R51 and R52, opcode first -/

/-- `CRC8 0xBE, 0xEF`: op 0000 0001, B0 1011 1110, B1 1110 1111, the rest 0 (R61). -/
theorem test_decode_crc8 :
    decode 0b00000001101111101110111100000000000000000000000000000000 = .ok (.crc8 0xBE 0xEF) := by rfl

/-- `CHK 0x64, 0x2C, 0xAC`: op 0000 0010, B0 0110 0100, B1 0010 1100, B2 1010 1100 (R61). -/
theorem test_decode_chk :
    decode 0b00000010011001000010110010101100000000000000000000000000 = .ok (.chk 0x64 0x2C 0xAC) := by rfl

/-- `DECT 0x64, 0x2C`: op 0000 0011, and B2 all ones, which is ignored (95_test_vectors.md section 2.7). -/
theorem test_decode_dect :
    decode 0b00000011011001000010110011111111000000000000000000000000 = .ok (.dect 0x64 0x2C) := by rfl

/-- `DECRH 0x5B, 0xD8`: op 0000 0100, B0 0101 1011, B1 1101 1000 (R61). -/
theorem test_decode_decrh :
    decode 0b00000100010110111101100000000000000000000000000000000000 = .ok (.decrh 0x5B 0xD8) := by rfl

/-- `MEAS 0x64, 0x2C, 0xAC, 0x5B, 0xD8, 0xC1`: op 0000 0101 and six bytes (R61). -/
theorem test_decode_meas :
    decode 0b00000101011001000010110010101100010110111101100011000001 =
      .ok (.meas 0x64 0x2C 0xAC 0x5B 0xD8 0xC1) := by rfl

/-- `SER 0x12, 0x34, 0x37, 0xAB, 0xCD, 0x6F`: op 0000 0110 and six bytes (R61). -/
theorem test_decode_ser :
    decode 0b00000110000100100011010000110111101010111100110101101111 =
      .ok (.ser 0x12 0x34 0x37 0xAB 0xCD 0x6F) := by rfl

/-- The illegal words of 95_test_vectors.md section 2.7. -/
theorem test_decode_illegal :
    decode 0x00000000000000 = .error (.illegalOpcode 0x00) ∧ decode 0xFFFFFFFFFFFFFF = .error (.illegalOpcode 0xFF) ∧
    decode 0x07642CAC5BD8C1 = .error (.illegalOpcode 0x07) ∧ decode 0x80642CAC5BD8C1 = .error (.illegalOpcode 0x80) :=
  ⟨rfl, rfl, rfl, rfl⟩

/-- The canonical encodings of R61. -/
theorem test_encode :
    encode (.crc8 0xBE 0xEF) = 0x01BEEF00000000 ∧ encode (.chk 0x64 0x2C 0xAC) = 0x02642CAC000000 ∧
    encode (.dect 0x64 0x2C) = 0x03642C00000000 ∧ encode (.decrh 0x5B 0xD8) = 0x045BD800000000 ∧
    encode (.meas 0x64 0x2C 0xAC 0x5B 0xD8 0xC1) = 0x05642CAC5BD8C1 ∧
    encode (.ser 0x12 0x34 0x37 0xAB 0xCD 0x6F) = 0x06123437ABCD6F := by decide

/-- Every row of the opcode table decodes to its operation and runs as the first step after reset. -/
theorem test_table_rows :
    decodeTableWord 56 0x01000000000000 = some (.crc8 0 0) ∧ decodeTableWord 56 0x02000000000000 = some (.chk 0 0 0) ∧
    decodeTableWord 56 0x03000000000000 = some (.dect 0 0) ∧ decodeTableWord 56 0x04000000000000 = some (.decrh 0 0) ∧
    decodeTableWord 56 0x05000000000000 = some (.meas 0 0 0 0 0 0) ∧
    decodeTableWord 56 0x06000000000000 = some (.ser 0 0 0 0 0 0) := by decide

theorem test_first_step_after_reset :
    (stepTo (State.reset.withFetchWord 56 0x01000000000000)).map State.crc = some (some 0x81) ∧
    (stepTo (State.reset.withFetchWord 56 0x02000000000000)).map State.matchBit = some false ∧
    (stepTo (State.reset.withFetchWord 56 0x03000000000000)).map State.t = some (some 0xFFCF0000) ∧
    (stepTo (State.reset.withFetchWord 56 0x04000000000000)).map State.rh = some (some 0x00000000) ∧
    (stepTo (State.reset.withFetchWord 56 0x05000000000000)).map State.statusWord = some 0x0005 ∧
    (stepTo (State.reset.withFetchWord 56 0x06000000000000)).map State.statusWord = some 0x0001 := by decide +kernel

/-! ### The operations -/

/-- 95_test_vectors.md section 2.1: the check value, and byte order. -/
theorem test_crc8_values :
    crc8 0xBE 0xEF = 0x92 ∧ crc8 0x00 0x01 = 0xB0 ∧ crc8 0x01 0x00 = 0x75 ∧ crc8 0x7F 0xFF = 0x8F := by decide +kernel

/-- The wrong readings of the checksum (95_test_vectors.md section 4): what they would give, and that the parameters do not. -/
theorem test_wrong_readings_of_the_parameters :
    paramChecksum 0x31 0x00 false false 0 [0xBE, 0xEF] = 0x13 ∧ paramChecksum 0x31 0xFF true true 0 [0xBE, 0xEF] = 0xF7 ∧
    paramChecksum 0x31 0xFF false false 0 [0xEF, 0xBE] = 0xCE ∧
    paramChecksum 0x31 0xFF false false 0 [0xBE, 0xEF] = 0x92 := by decide +kernel

/-- `CRC8` from reset: STATUS `0x0100` (section 2.1). -/
theorem test_crc8_status :
    (fromReset 0x01BEEFFFFFFFFF).crc = some 0x92 ∧ (fromReset 0x01BEEFFFFFFFFF).statusWord = 0x0100 := by decide +kernel

/-- `CHK` (section 2.2): a good field with ignored bytes all ones, and the swapped payload. -/
theorem test_chk :
    (fromReset 0x02642CACFFFFFF).statusWord = 0x0010 ∧ (fromReset 0x022C64AC000000).statusWord = 0x0000 := by decide +kernel

/-- `DECT` (section 2.3): a negative numerator rounds toward minus infinity. -/
theorem test_dect_negative : (fromReset 0x03000100000000).t = some 0xFFCF013B := by decide

/-- `DECT` (section 2.3): a large raw value, and STATUS. -/
theorem test_dect_large :
    (fromReset 0x03BEEF00000000).t = some 0x00B9F100 ∧ (fromReset 0x03BEEF00000000).statusWord = 0x0200 := by decide

/-- `DECRH` (section 2.4): the last raw value clamped to 0 and the first not. -/
theorem test_decrh_low :
    (fromReset 0x040C4900000000).rh = some 0x00000000 ∧ (fromReset 0x040C4A00000000).rh = some 0x00000028 := by decide

/-- `DECRH` (section 2.4): the last raw value not clamped to 100 and the first clamped. -/
theorem test_decrh_high :
    (fromReset 0x04D91500000000).rh = some 0x0063FFAB ∧ (fromReset 0x04D91600000000).rh = some 0x00640000 := by decide

/-- `MEAS` (section 2.5): the document's scenario. -/
theorem test_meas_success :
    (fromReset 0x05642CAC5BD8C1).t = some 0x004A429F ∧ (fromReset 0x05642CAC5BD8C1).rh = some 0x0026D8A5 ∧
    (fromReset 0x05642CAC5BD8C1).statusWord = 0x0600 := by decide +kernel

/-- `MEAS` (section 2.5): either field bad, and both. -/
theorem test_meas_errors :
    (fromReset 0x05642CAD5BD8C1).statusWord = 0x0005 ∧ (fromReset 0x05642CAC5BD8C0).statusWord = 0x0007 ∧
    (fromReset 0x05642CAD5BD8C0).statusWord = 0x0005 := by decide +kernel

/-- `SER` (section 2.6): the measurement frame given to it, and `BE EF 92 BE EF 92`. -/
theorem test_ser_success :
    (fromReset 0x06642CAC5BD8C1).sn = some 0x642C5BD8 ∧ (fromReset 0x06BEEF92BEEF92).statusWord = 0x0800 := by decide +kernel

/-- `SER` (section 2.6): either half bad, and both. -/
theorem test_ser_errors :
    (fromReset 0x06123436ABCD6F).statusWord = 0x0001 ∧ (fromReset 0x06123437ABCD6E).statusWord = 0x0003 ∧
    (fromReset 0x06123436ABCD6E).statusWord = 0x0001 := by decide +kernel

/-- An illegal request leaves `T` and `MATCH` alone (section 3, program P4). -/
theorem test_illegal_keeps_state :
    (afterRequest 0xFFFFFFFFFFFFFF { State.reset with t := some 0xFFFFFF97, matchBit := true }).statusWord = 0x0218 := by
  decide

/-- A failed `MEAS` takes the good half away too, and nothing but `T` and `RH` (section 3, program P3). -/
theorem test_failed_meas_invalidates_both :
    afterRequest 0x05FFFFAC000000 { State.reset with t := some 1, rh := some 2, sn := some 3, crc := some 4 } =
      { State.reset with sn := some 3, crc := some 4, err := true, which := 3 } := by decide +kernel

/-- After a reset every result register is read as a fault (section 2.8). -/
theorem test_read_after_reset :
    stepFault (withMoves [.readResult .t]) = some (.readOfNoValue .t) ∧ stepTo (withMoves [.readResult .t]) = none ∧
    stepTo (withMoves [.readStatus]) = some State.reset := by decide

/-- Asserting `rst` after a `DECT` (R150). -/
theorem test_reset_move :
    stepTo { State.reset with t := some 1, matchBit := true, hostMoves := [.assertRst] } = some State.reset := by decide

/-- `TEMP` fails with `ChecksumError(humidity)` on a bad humidity field (R115; section 3, program P5). -/
theorem test_temp_bad_humidity :
    pseudoTemp 0x66 0x8F 0xDA 0x5B 0xD8 0xC0 State.reset = .error (.checksum .humidity) ∧
    pseudoRhum 0x66 0x8F 0xDA 0x5A 0x10 0xCB State.reset = .ok 0x0025F9FC := by decide +kernel

/-- Assembling a line with a comment, decimal and hexadecimal literals (R58), and printing a word (R59). -/
theorem test_assemble_line :
    assembleLine ['C', 'H', 'K', ' ', ' ', '1', '0', '0', ',', ' ', '0', 'x', '2', 'C', ',', '1', '7', '2', ' ', ';', ' ', 'x'] =
      .ok (some 0x02642CAC000000) ∧
    disassemble 0x045BD8FFFFFFFF = ['D', 'E', 'C', 'R', 'H', ' ', '0', 'x', '5', 'B', ',', ' ', '0', 'x', 'D', '8'] := by
  constructor <;> rfl

/-- Assembly errors (R59). -/
theorem test_assembly_errors :
    assembleLine ['C', 'R', 'C', '8', ' ', '1'] = .error .wrongOperandCount ∧
    assembleLine ['C', 'R', 'C', '8', ' ', '1', ',', '2', '5', '6'] = .error .byteOutOfRange ∧
    assembleLine ['c', 'r', 'c', '8', ' ', '1', ',', '2'] = .error .unknownMnemonic ∧
    assembleLine ['C', 'R', 'C', '8', ' ', '1', ',', 'x'] = .error .badLiteral ∧
    assembleLine [' ', ';', ' ', 'x'] = .ok none := by refine ⟨?_, ?_, ?_, ?_, ?_⟩ <;> rfl

/-- With `LATENCY` 2 a request shows after the second edge, with `resp_valid` (R50). -/
theorem test_ports_latency_two :
    let b : Block := { core := State.reset, inFlight := none, respValid := false, cycles := 0 }
    let i : Inputs := { rst := false, reqValid := true, req := 0x01BEEF00000000 }
    let idle : Inputs := { rst := false, reqValid := false, req := 0 }
    (b.cyclesWith 2 [i]).core.crc = none ∧ (b.cyclesWith 2 [i, idle]).core.crc = some 0x92 ∧
    (b.cyclesWith 2 [i]).respValid = false ∧ (b.cyclesWith 2 [i, idle]).respValid = true := by decide +kernel

/-! ### Witnesses: a state and operands that meet the hypotheses of each statement that has some -/

theorem witness_ChkRule : reqOp 0x01BEEF00000000 ≠ 0x02 := by decide

theorem witness_IllegalOpcodeReported :
    reqOp 0x00000000000000 ∉ legalOps ∧ reqOp 0x07000000000000 ∉ legalOps ∧ reqOp 0xFFFFFFFFFFFFFF ∉ legalOps := by decide

/-- Both frame operations raise a `ChecksumError`, so the last clause is met. -/
theorem witness_OutcomeFixedByRequest :
    refError 0x05000000000000 = some (.checksum .temperature) ∧ refError 0x06123437ABCD6E = some (.checksum .serialHalf2) := by
  decide +kernel

theorem witness_OutcomePriority :
    reqOp 0x07000000000000 ∉ legalOps ∧ reqOp 0x01000000000000 ≠ 0x02 ∧ reqOp 0x02000000000000 ≠ 0x01 ∧
    (reqOp 0x04000000000000 ≠ 0x03 ∧ reqOp 0x04000000000000 ≠ 0x05) ∧
    (reqOp 0x06000000000000 ≠ 0x04 ∧ reqOp 0x06000000000000 ≠ 0x05) ∧ reqOp 0x05000000000000 ≠ 0x06 := by decide

/-- A request for each of the five errors. -/
theorem witness_ErrorEffectIsExact :
    (fromReset 0x06123436ABCD6F).reported = some (.checksum .serialHalf1) ∧
    (fromReset 0x06123437ABCD6E).reported = some (.checksum .serialHalf2) ∧
    (fromReset 0x05642CAD5BD8C1).reported = some (.checksum .temperature) ∧
    (fromReset 0x05642CAC5BD8C0).reported = some (.checksum .humidity) ∧
    (fromReset 0x00000000000000).reported = some .illegalOperation := by decide +kernel

/-- A request that changes each field from reset, and one for each premise about errors. -/
theorem witness_StatusRegister :
    refError 0x06123437ABCD6E = some (.checksum .serialHalf2) ∧ reqOp 0x02642CAC000000 = 0x02 ∧
    (fromReset 0x02642CAC000000).matchBit ≠ State.reset.matchBit ∧ (fromReset 0x01BEEF00000000).crc ≠ State.reset.crc ∧
    (fromReset 0x03642C00000000).t ≠ State.reset.t ∧ (fromReset 0x045BD800000000).rh ≠ State.reset.rh ∧
    (fromReset 0x06123437ABCD6F).sn ≠ State.reset.sn ∧ (fromReset 0x01BEEF00000000).err = false := by decide +kernel

theorem witness_ChecksumIsBalanced : crc8 0xBE 0xEF = 0x92 := by decide +kernel

/-- A valid field with patterns of 1 bit and of 3 bits, the ends of the range. -/
theorem witness_SmallChangesDetected :
    fieldWordOk (fieldWord 0x64 0x2C 0xAC) = true ∧ flips (fieldWord 0x00 0x00 0x01) = 1 ∧
    flips (fieldWord 0x80 0x00 0x03) = 3 := by decide +kernel

theorem witness_TemperatureIsMonotone :
    (0x0000 : Raw).toNat < (0xFFFF : Raw).toNat ∧ (0xFFFF : Raw).toNat = (0xFFFE : Raw).toNat + 1 := by decide

/-- The raw values at which the clauses meet. -/
theorem witness_HumidityIsMonotone :
    (3145 : Raw).toNat ≤ 3145 ∧ 55574 ≤ (55574 : Raw).toNat ∧
    ((3147 : Raw).toNat = (3146 : Raw).toNat + 1 ∧ 3146 ≤ (3146 : Raw).toNat ∧ (3147 : Raw).toNat ≤ 55573) ∧
    ((55573 : Raw).toNat = (55572 : Raw).toNat + 1 ∧ 3146 ≤ (55572 : Raw).toNat ∧ (55573 : Raw).toNat ≤ 55573) := by decide

/-- The raw values at which the clauses meet, the last on each side. -/
theorem witness_HumidityClamp :
    (3145 : Raw).toNat ≤ 3145 ∧ 55574 ≤ (55574 : Raw).toNat ∧
    (3146 ≤ (3146 : Raw).toNat ∧ (3146 : Raw).toNat ≤ 55573) ∧
    (3146 ≤ (55573 : Raw).toNat ∧ (55573 : Raw).toNat ≤ 55573) := by decide

theorem witness_ResetFromEveryState :
    (withMoves [.assertRst, .readStatus]).hostMoves = .assertRst :: [.readStatus] ∧
    ({ rst := true, reqValid := true, req := 0 } : Inputs).rst = true := by decide

/-- Reset with one `CHK` to come meets the invariant and steps to a next state. -/
theorem witness_StepKeepsInvariant :
    (withMoves [.present 0x02642CAC000000]).Inv ∧
    step (withMoves [.present 0x02642CAC000000]) = .next { State.reset with matchBit := true } := by
  refine ⟨⟨fun _ => rfl, fun h => ?_, fun v h => ?_, fun v h => ?_, fun _ _ => ⟨rfl, rfl⟩, fun _ _ => rfl⟩,
    step_of_stepTo (by decide +kernel)⟩
  · exact absurd h (by decide)
  · simp [withMoves] at h
  · simp [withMoves] at h

theorem witness_StepRunsDecoded :
    (withMoves [.present 0x01BEEF00000000]).hostMoves = .present 0x01BEEF00000000 :: [] ∧
    decode 0x01BEEF00000000 = .ok (.crc8 0xBE 0xEF) ∧
    (withMoves [.present 0x07000000000000]).hostMoves = .present 0x07000000000000 :: [] ∧
    reqOp 0x07000000000000 ∉ legalOps ∧ State.reset.hostMoves = [] := ⟨rfl, rfl, rfl, by decide, rfl⟩

/-- A use of a register that is allowed, at the head of the host's moves. -/
theorem witness_StepFaultsExactlyOnEmptyRead :
    let s : State := { State.reset with t := some 5, hostMoves := [.readResult .t, .assertRst] }
    s.hostMoves = .readResult .t :: [.assertRst] ∧ s.valid .t = true := by decide

theorem witness_AtomicAndIdempotent :
    reqOp 0x05642CAC5BD8C1 = 0x05 ∧ ({ State.reset with crc := some 5 } : State).valid .crc = true := by decide

/-- A reset that invalidates `CRC` and clears `MATCH`, and a failed `CHK` that clears `MATCH`. -/
theorem witness_OnlyResetInvalidatesCrc :
    step { State.reset with crc := some 5, matchBit := true, hostMoves := [.assertRst] } = .next State.reset ∧
    step { State.reset with matchBit := true, hostMoves := [.present 0x02000000000000] } = .next State.reset :=
  ⟨step_of_stepTo (by decide), step_of_stepTo (by decide +kernel)⟩

theorem witness_PortsShowRegisters :
    let s : State := { State.reset with crc := some 1, t := some 2, rh := some 3, sn := some 4 }
    let idle : Block := { core := s, inFlight := none, respValid := true, cycles := 7 }
    let busy : Block := { idle with inFlight := some { req := 0x01BEEF00000000, left := 2 } }
    idle.inFlight = none ∧ idle.shown.crc = some 1 ∧ idle.shown.t = some 2 ∧ idle.shown.rh = some 3 ∧
    idle.shown.sn = some 4 ∧ busy.inFlight = some { req := 0x01BEEF00000000, left := 2 } := by decide

/-- `LATENCY` 1 with no further edge (the second clause), `LATENCY` 3 with one further edge (the first clause) and with two
(the second clause), and an idle edge after. -/
theorem witness_ResultsAfterLatency :
    let b : Block := { core := State.reset, inFlight := none, respValid := false, cycles := 0 }
    let i : Inputs := { rst := false, reqValid := true, req := 0x01BEEF00000000 }
    let idle : Inputs := { rst := false, reqValid := false, req := 0 }
    b.accepts i = true ∧ (∀ j ∈ [i, idle], j.rst = false) ∧ (1 ≤ 1 ∧ ([] : List Inputs).length + 1 = 1) ∧
    (1 ≤ 3 ∧ [i].length + 1 < 3) ∧ [i, idle].length + 1 = 3 ∧ idle.rst = false ∧ idle.reqValid = false := by decide

end Sys2Proof.Tests
end

/-! ## What a request does: the error it raises, its effect opcode by opcode, and what it leaves unchanged -/

namespace Sys2Proof.Machine

/-! ### The error of a request word -/

theorem refError_illegal {r : Request} (h : reqOp r ∉ legalOps) : refError r = some .illegalOperation := by
  simp [refError, h]

/-- Only `MEAS`, `SER` and an illegal opcode raise an error (60_exceptions.md R130). -/
theorem reqOp_of_error {r : Request} {e : OpError} (h : refError r = some e) :
    reqOp r = 0x05 ∨ reqOp r = 0x06 ∨ reqOp r ∉ legalOps := by
  unfold refError at h
  split_ifs at h <;> tauto

theorem refError_meas {r : Request} (h : reqOp r = 0x05) :
    refError r = (firstFailing .temperature .humidity (reqB0 r) (reqB1 r) (reqB2 r) (reqB3 r) (reqB4 r) (reqB5 r)).map
      .checksum := by
  simp only [refError, firstFailing, fieldOk_iff, h]
  split_ifs <;> simp_all [legalOps]

theorem refError_ser {r : Request} (h : reqOp r = 0x06) :
    refError r = (firstFailing .serialHalf1 .serialHalf2 (reqB0 r) (reqB1 r) (reqB2 r) (reqB3 r) (reqB4 r) (reqB5 r)).map
      .checksum := by
  simp only [refError, firstFailing, fieldOk_iff, h]
  split_ifs <;> simp_all [legalOps]

/-! ### The state after a request, opcode by opcode -/

theorem afterRequest_eq_of_exec {r : Request} {i : Instr} {s u : State} (hd : decode r = .ok i)
    (he : exec i s = .next u) : afterRequest r s = u := by
  have h := (exec_afterRequest hd s).symm.trans he
  injection h

theorem afterRequest_crc8 {r : Request} (h : reqOp r = 0x01) (s : State) :
    afterRequest r s = (s.writeCrc (crc8 (reqB0 r) (reqB1 r))).succeed :=
  afterRequest_eq_of_exec (decode_crc8 r h) rfl

theorem afterRequest_chk {r : Request} (h : reqOp r = 0x02) (s : State) :
    afterRequest r s = (s.setMatch (fieldOk (reqB0 r) (reqB1 r) (reqB2 r))).succeed :=
  afterRequest_eq_of_exec (decode_chk r h) rfl

theorem afterRequest_dect {r : Request} (h : reqOp r = 0x03) (s : State) :
    afterRequest r s = (s.writeT (tempBits (be16 (reqB0 r) (reqB1 r)))).succeed :=
  afterRequest_eq_of_exec (decode_dect r h) rfl

theorem afterRequest_decrh {r : Request} (h : reqOp r = 0x04) (s : State) :
    afterRequest r s = (s.writeRh (humBits (be16 (reqB0 r) (reqB1 r)))).succeed :=
  afterRequest_eq_of_exec (decode_decrh r h) rfl

/-- `MEAS` on a frame with both fields valid (42_frame.md R111). -/
theorem afterRequest_meas {r : Request} (h : reqOp r = 0x05) (ok : refError r = none) (s : State) :
    afterRequest r s =
      ((s.writeT (tempBits (be16 (reqB0 r) (reqB1 r)))).writeRh (humBits (be16 (reqB3 r) (reqB4 r)))).succeed := by
  rw [refError_meas h, Option.map_eq_none_iff] at ok
  exact afterRequest_eq_of_exec (decode_meas r h) (by simp only [exec, execMeas, ok])

/-- `SER` on a frame with both halves valid (42_frame.md R113). -/
theorem afterRequest_ser {r : Request} (h : reqOp r = 0x06) (ok : refError r = none) (s : State) :
    afterRequest r s = (s.writeSn (serialWord (reqB0 r) (reqB1 r) (reqB3 r) (reqB4 r))).succeed := by
  rw [refError_ser h, Option.map_eq_none_iff] at ok
  exact afterRequest_eq_of_exec (decode_ser r h) (by simp only [exec, execSer, ok])

/-- A request that raises an error does nothing else (60_exceptions.md R136). -/
theorem afterRequest_error {r : Request} {e : OpError} (h : refError r = some e) (s : State) :
    afterRequest r s = s.raise e := by
  rcases reqOp_of_error h with hop | hop | hop
  · obtain ⟨q, hq, rfl⟩ := Option.map_eq_some_iff.mp ((refError_meas hop).symm.trans h)
    exact afterRequest_eq_of_exec (decode_meas r hop) (by simp only [exec, execMeas, hq])
  · obtain ⟨q, hq, rfl⟩ := Option.map_eq_some_iff.mp ((refError_ser hop).symm.trans h)
    exact afterRequest_eq_of_exec (decode_ser r hop) (by simp only [exec, execSer, hq])
  · obtain rfl : .illegalOperation = e := Option.some.inj ((refError_illegal hop).symm.trans h)
    exact afterRequest_illegal hop s

/-- A request that raises no error ends with `ERR`, `WHICH` and `ILL` cleared (10_state.md R31). -/
theorem afterRequest_noError {r : Request} (h : refError r = none) (s : State) :
    ∃ w : State, afterRequest r s = w.succeed := by
  rcases op_cases (reqOp r) with hop | hop | hop | hop | hop | hop | hop
  · exact ⟨_, afterRequest_crc8 hop s⟩
  · exact ⟨_, afterRequest_chk hop s⟩
  · exact ⟨_, afterRequest_dect hop s⟩
  · exact ⟨_, afterRequest_decrh hop s⟩
  · exact ⟨_, afterRequest_meas hop h s⟩
  · exact ⟨_, afterRequest_ser hop h s⟩
  · simp [refError_illegal hop] at h

/-! ### `ERR`, `WHICH` and `ILL` after a request -/

/-- `ERR`, `WHICH` and `ILL` as the outcome of the last request fixes them (10_state.md R31). -/
def outcomeFlags : Option OpError → Bool × BitVec 2 × Bool
  | none => (false, 0, false)
  | some (.checksum q) => (true, q.code, false)
  | some .illegalOperation => (false, 0, true)

theorem raise_flags (s : State) (e : OpError) :
    ((s.raise e).err, (s.raise e).which, (s.raise e).ill) = outcomeFlags (some e) := by
  cases e <;> rfl

theorem afterRequest_flags (r : Request) (s : State) :
    ((afterRequest r s).err, (afterRequest r s).which, (afterRequest r s).ill) = outcomeFlags (refError r) := by
  cases h : refError r with
  | some e => rw [afterRequest_error h]; exact raise_flags s e
  | none =>
    obtain ⟨w, hw⟩ := afterRequest_noError h s
    rw [hw]; rfl

theorem afterRequest_err (r : Request) (s : State) : (afterRequest r s).err = (outcomeFlags (refError r)).1 :=
  congrArg Prod.fst (afterRequest_flags r s)

theorem afterRequest_which (r : Request) (s : State) : (afterRequest r s).which = (outcomeFlags (refError r)).2.1 :=
  congrArg (·.2.1) (afterRequest_flags r s)

theorem afterRequest_ill (r : Request) (s : State) : (afterRequest r s).ill = (outcomeFlags (refError r)).2.2 :=
  congrArg (·.2.2) (afterRequest_flags r s)

theorem outcomeFlags_err_iff (o : Option OpError) : (outcomeFlags o).1 = true ↔ ∃ q, o = some (.checksum q) := by
  rcases o with _ | _ | _ <;> simp [outcomeFlags]

theorem outcomeFlags_ill_iff (o : Option OpError) : (outcomeFlags o).2.2 = true ↔ o = some .illegalOperation := by
  rcases o with _ | _ | _ <;> simp [outcomeFlags]

theorem outcomeFlags_which_of_no_err {o : Option OpError} (h : (outcomeFlags o).1 = false) : (outcomeFlags o).2.1 = 0 := by
  rcases o with _ | _ | _
  · rfl
  · cases h
  · rfl

/-- The order of priority of 60_exceptions.md R135 as one chain of conditions on the request word. -/
theorem outcomeFlags_refError (r : Request) :
    outcomeFlags (refError r) =
      if reqOp r ∉ legalOps then (false, 0, true)
      else if reqOp r = 0x05 ∧ crc8 (reqB0 r) (reqB1 r) ≠ reqB2 r then (true, 2, false)
      else if reqOp r = 0x05 ∧ crc8 (reqB3 r) (reqB4 r) ≠ reqB5 r then (true, 3, false)
      else if reqOp r = 0x06 ∧ crc8 (reqB0 r) (reqB1 r) ≠ reqB2 r then (true, 0, false)
      else if reqOp r = 0x06 ∧ crc8 (reqB3 r) (reqB4 r) ≠ reqB5 r then (true, 1, false)
      else (false, 0, false) := by
  by_cases legal : reqOp r ∈ legalOps
  · by_cases meas : reqOp r = 0x05
    · simp only [refError, meas, apply_ite outcomeFlags]
      simp [outcomeFlags, Quantity.code, legalOps]
    · by_cases ser : reqOp r = 0x06
      · simp only [refError, ser, apply_ite outcomeFlags]
        simp [outcomeFlags, Quantity.code, legalOps]
      · simp only [refError, legal, meas, ser, not_true, false_and, if_false, outcomeFlags]
  · simp only [refError, legal, not_false_iff, if_true, outcomeFlags]

/-! ### What a request leaves unchanged -/

/-- `u` differs from `s` only in registers and `MATCH` that the operation with opcode `op` writes (10_state.md R31), `ERR`,
`WHICH` and `ILL` put aside. -/
structure KeepsUnwritten (op : Byte) (s u : State) : Prop where
  matchBit : op ≠ 0x02 → u.matchBit = s.matchBit
  crc : op ≠ 0x01 → u.crc = s.crc
  t : op ≠ 0x03 → op ≠ 0x05 → u.t = s.t
  rh : op ≠ 0x04 → op ≠ 0x05 → u.rh = s.rh
  sn : op ≠ 0x06 → u.sn = s.sn

/-- The opcode of the frame a quantity is a half of: `MEAS` or `SER` (60_exceptions.md R132). -/
def Quantity.frameOp : Quantity → Byte
  | .serialHalf1 => 0x06
  | .serialHalf2 => 0x06
  | .temperature => 0x05
  | .humidity => 0x05

theorem reqOp_of_checksumError {r : Request} {q : Quantity} (h : refError r = some (.checksum q)) : reqOp r = q.frameOp := by
  unfold refError at h
  split_ifs at h <;> cases h <;> assumption

theorem keepsUnwritten_raise_checksum (s : State) (q : Quantity) :
    KeepsUnwritten q.frameOp s (s.raise (.checksum q)) := by
  cases q <;> constructor <;> simp [Quantity.frameOp, State.raise, State.invalidateFor]

theorem keepsUnwritten_raise_illegal (op : Byte) (s : State) : KeepsUnwritten op s (s.raise .illegalOperation) := by
  constructor <;> intros <;> rfl

theorem afterRequest_keepsUnwritten (r : Request) (s : State) : KeepsUnwritten (reqOp r) s (afterRequest r s) := by
  rcases he : refError r with _ | q | _
  · rcases op_cases (reqOp r) with hop | hop | hop | hop | hop | hop | hop
    · rw [afterRequest_crc8 hop, hop]; constructor <;> simp
    · rw [afterRequest_chk hop, hop]; constructor <;> simp
    · rw [afterRequest_dect hop, hop]; constructor <;> simp
    · rw [afterRequest_decrh hop, hop]; constructor <;> simp
    · rw [afterRequest_meas hop he, hop]; constructor <;> simp
    · rw [afterRequest_ser hop he, hop]; constructor <;> simp
    · simp [refError_illegal hop] at he
  · rw [afterRequest_error he, reqOp_of_checksumError he]
    exact keepsUnwritten_raise_checksum s q
  · rw [afterRequest_error he]
    exact keepsUnwritten_raise_illegal (reqOp r) s

/-- Settles O23: the flags follow from the one error the request word raises, the rest from the frame of its opcode. -/
theorem outcomePriority : Obligations.OutcomePriority := by
  intro r s
  have keeps := afterRequest_keepsUnwritten r s
  refine ⟨(afterRequest_flags r s).trans (outcomeFlags_refError r),
    fun h => (afterRequest_illegal h s).trans (raise_illegal s), keeps.matchBit, ?_, ?_, ?_, ?_⟩
  · exact fun notCrc8 => congrArg Option.isSome (keeps.crc notCrc8)
  · exact fun notDect notMeas => congrArg Option.isSome (keeps.t notDect notMeas)
  · exact fun notDecrh notMeas => congrArg Option.isSome (keeps.rh notDecrh notMeas)
  · exact fun notSer => congrArg Option.isSome (keeps.sn notSer)

/-! ### The layout of STATUS -/

/-- One bit of STATUS, field by field from bit 0 up (10_state.md R29, R32). -/
theorem statusWord_getLsbD (s : State) (i : Nat) :
    s.statusWord.getLsbD i =
      if i < 1 then s.err
      else if i < 3 then s.which.getLsbD (i - 1)
      else if i < 4 then s.ill
      else if i < 5 then s.matchBit
      else if i < 8 then false
      else if i < 9 then s.crc.isSome
      else if i < 10 then s.t.isSome
      else if i < 11 then s.rh.isSome
      else if i < 12 then s.sn.isSome
      else false := by
  unfold State.statusWord
  -- The outer append by itself: `simp` does not see the width 16 as a sum.
  rw [BitVec.getLsbD_append]
  simp only [BitVec.getLsbD_append, BitVec.getLsbD_ofBool, BitVec.getLsbD_zero, State.valid, Nat.sub_sub]
  by_cases inFields : i < 12
  · interval_cases i <;> simp
  · grind

theorem statusWord_which (s : State) : s.statusWord.extractLsb' 1 2 = s.which := by
  ext i hi
  rw [BitVec.getElem_extractLsb', statusWord_getLsbD, if_neg (by omega), if_pos (by omega), Nat.add_sub_cancel_left,
    BitVec.getLsbD_eq_getElem hi]

theorem statusWord_reserved_low (s : State) : s.statusWord.extractLsb' 5 3 = 0 := by
  ext i hi
  rw [BitVec.getElem_extractLsb', statusWord_getLsbD]
  interval_cases i <;> simp

theorem statusWord_reserved_high (s : State) : s.statusWord.extractLsb' 12 4 = 0 := by
  ext i hi
  rw [BitVec.getElem_extractLsb', statusWord_getLsbD]
  interval_cases i <;> simp

/-- Every field of STATUS at its place. -/
theorem statusWord_layout (s : State) :
    s.statusWord.getLsbD 0 = s.err ∧ s.statusWord.extractLsb' 1 2 = s.which ∧ s.statusWord.getLsbD 3 = s.ill ∧
    s.statusWord.getLsbD 4 = s.matchBit ∧ s.statusWord.extractLsb' 5 3 = 0 ∧
    s.statusWord.getLsbD 8 = s.crc.isSome ∧ s.statusWord.getLsbD 9 = s.t.isSome ∧
    s.statusWord.getLsbD 10 = s.rh.isSome ∧ s.statusWord.getLsbD 11 = s.sn.isSome ∧
    s.statusWord.extractLsb' 12 4 = 0 :=
  ⟨statusWord_getLsbD s 0, statusWord_which s, statusWord_getLsbD s 3, statusWord_getLsbD s 4, statusWord_reserved_low s,
    statusWord_getLsbD s 8, statusWord_getLsbD s 9, statusWord_getLsbD s 10, statusWord_getLsbD s 11,
    statusWord_reserved_high s⟩

theorem statusWord_reset : State.reset.statusWord = 0x0000 := rfl

/-- Settles O26: the layout, the flags by the error of the request word, and each other field by the frame of the opcode. -/
theorem statusRegister : Obligations.StatusRegister := by
  refine ⟨statusWord_layout, fun r s => ?_, statusWord_reset⟩
  have keeps := afterRequest_keepsUnwritten r s
  refine ⟨?_, ?_, ?_, ?_, ?_, ?_, ?_, ?_, ?_, ?_⟩
  · rw [afterRequest_err]; exact outcomeFlags_err_iff _
  · intro q hq
    rw [afterRequest_which, hq]; rfl
  · rw [afterRequest_ill]; exact outcomeFlags_ill_iff _
  · intro hop
    rw [afterRequest_chk hop]
    exact fieldOk_iff _ _ _
  · exact not_imp_comm.mp keeps.matchBit
  · exact not_imp_comm.mp keeps.crc
  · exact fun changed => or_iff_not_imp_left.mpr fun other => not_imp_comm.mp (keeps.t other) changed
  · exact fun changed => or_iff_not_imp_left.mpr fun other => not_imp_comm.mp (keeps.rh other) changed
  · exact not_imp_comm.mp keeps.sn
  · rw [afterRequest_err, afterRequest_which]; exact outcomeFlags_which_of_no_err

/-! ### The codes of `WHICH` and the reset state -/

/-- Settles O25: the codes are 0 to 3 in the listing order, and each has its two bits read off. -/
theorem quantityCodes : Obligations.QuantityCodes := by
  refine ⟨rfl, fun q => ?_⟩
  cases q <;> decide

/-- Settles O42: the reset record, and the read of a register without a value. -/
theorem resetState : Obligations.ResetState :=
  ⟨statusWord_reset, State.reset_err, State.reset_which, State.reset_ill, State.reset_matchBit, State.reset_crc,
    State.reset_t, State.reset_rh, State.reset_sn, rfl, rfl, rfl, rfl⟩

end Sys2Proof.Machine

/-! ## Byte order, atomicity and idempotence (20_memory.md) -/

namespace Sys2Proof.Machine

/-! ### Byte order -/

/-- The first byte weighs 256, and the sum has no sign (20_memory.md R42). -/
theorem be16_toNat (hi lo : Byte) : (be16 hi lo).toNat = hi.toNat * 256 + lo.toNat := by
  rw [be16, BitVec.toNat_append, ← Nat.shiftLeft_add_eq_or_of_lt lo.isLt, Nat.shiftLeft_eq]

/-- A further byte at the low end moves what stands there up by a byte. -/
theorem setWidth_append_byte {w : Nat} (x : BitVec w) (y : Byte) :
    (x ++ y).setWidth 32 = x.setWidth 32 <<< 8 ||| y.setWidth 32 := by
  ext i hi
  by_cases inLowByte : i < 8
  · simp [BitVec.getLsbD_append, inLowByte]
  · have above : 8 ≤ i := by omega
    simp [BitVec.getLsbD_append, inLowByte, BitVec.getLsbD_of_ge y i above]

/-- The serial number as the document's shifts and ors (20_memory.md R42). -/
theorem serialWord_eq_shifts (b0 b1 b3 b4 : Byte) :
    serialWord b0 b1 b3 b4 =
      b0.setWidth 32 <<< 24 ||| b1.setWidth 32 <<< 16 ||| b3.setWidth 32 <<< 8 ||| b4.setWidth 32 :=
  calc serialWord b0 b1 b3 b4
    _ = (b0 ++ b1 ++ b3 ++ b4).setWidth 32 := (BitVec.setWidth_eq _).symm
    _ = ((b0.setWidth 32 <<< 8 ||| b1.setWidth 32) <<< 8 ||| b3.setWidth 32) <<< 8 ||| b4.setWidth 32 := by
      simp only [setWidth_append_byte]
    _ = _ := by simp only [BitVec.shiftLeft_or_distrib, ← BitVec.shiftLeft_add]

theorem serialWord_most_significant (b0 b1 b3 b4 : Byte) : (serialWord b0 b1 b3 b4).extractLsb' 24 8 = b0 :=
  calc (serialWord b0 b1 b3 b4).extractLsb' 24 8
    _ = (b0 ++ b1 ++ b3).extractLsb' 16 8 := BitVec.extractLsb'_append_eq_of_le (by decide)
    _ = (b0 ++ b1).extractLsb' 8 8 := BitVec.extractLsb'_append_eq_of_le (by decide)
    _ = b0 := BitVec.extractLsb'_append_eq_left

theorem serialWord_least_significant (b0 b1 b3 b4 : Byte) : (serialWord b0 b1 b3 b4).extractLsb' 0 8 = b4 :=
  BitVec.extractLsb'_append_eq_right

/-- Settles O7: the value by the weights of its bytes, the serial number byte after byte. -/
theorem bigEndianAssembly : Obligations.BigEndianAssembly := by
  refine ⟨fun hi lo => ⟨be16_toNat hi lo, rfl⟩, fun b0 b1 b3 b4 => ⟨?_, ?_, ?_⟩, be16_toNat 0x80 0x00⟩
  · exact serialWord_eq_shifts b0 b1 b3 b4
  · exact serialWord_most_significant b0 b1 b3 b4
  · exact serialWord_least_significant b0 b1 b3 b4

/-! ### The same request twice -/

/-- An error writes constants only, so raising it again changes nothing (60_exceptions.md R136). -/
theorem raise_raise (s : State) (e : OpError) : (s.raise e).raise e = s.raise e := by
  rcases e with q | _
  · cases q <;> rfl
  · rfl

/-- What a request writes is fixed by the request, so the second time writes what is there (20_memory.md R47). -/
theorem afterRequest_idempotent (r : Request) (s : State) : afterRequest r (afterRequest r s) = afterRequest r s := by
  rcases he : refError r with _ | e
  · rcases op_cases (reqOp r) with hop | hop | hop | hop | hop | hop | hop
    · simp only [afterRequest_crc8 hop]; rfl
    · simp only [afterRequest_chk hop]; rfl
    · simp only [afterRequest_dect hop]; rfl
    · simp only [afterRequest_decrh hop]; rfl
    · simp only [afterRequest_meas hop he]; rfl
    · simp only [afterRequest_ser hop he]; rfl
    · simp [refError_illegal hop] at he
  · simp only [afterRequest_error he, raise_raise]

/-! ### `T` and `RH` after `MEAS` -/

theorem refError_meas_cases {r : Request} (h : reqOp r = 0x05) :
    refError r = none ∨ refError r = some (.checksum .temperature) ∨ refError r = some (.checksum .humidity) := by
  rw [refError_meas h]
  rcases firstFailing_cases .temperature .humidity (reqB0 r) (reqB1 r) (reqB2 r) (reqB3 r) (reqB4 r) (reqB5 r) with
    ⟨_, _, valid⟩ | ⟨_, _, badHumidity⟩ | ⟨_, badTemperature⟩
  · exact .inl (by rw [valid]; rfl)
  · exact .inr (.inr (by rw [badHumidity]; rfl))
  · exact .inr (.inl (by rw [badTemperature]; rfl))

/-- A valid frame writes both registers, a failing one empties both (42_frame.md R111). -/
theorem afterRequest_meas_t_isSome {r : Request} (h : reqOp r = 0x05) (s : State) :
    (afterRequest r s).t.isSome = (afterRequest r s).rh.isSome := by
  rcases refError_meas_cases h with he | he | he
  · rw [afterRequest_meas h he]; rfl
  · rw [afterRequest_error he]; rfl
  · rw [afterRequest_error he]; rfl

/-! ### Reading -/

theorem takeMove_readResult_of_valid {s : State} {reg : ResultReg} (h : s.valid reg = true) :
    takeMove (.readResult reg) s = .next s := if_pos h

/-- Settles O49: the ports show one of two whole states, and the rest is read off from what a request or a read does. -/
theorem atomicAndIdempotent : Obligations.AtomicAndIdempotent := by
  refine ⟨shown_cases, afterRequest_idempotent, ?_, ?_⟩
  · exact fun _ s isMeas => afterRequest_meas_t_isSome isMeas s
  · exact fun _ => ⟨rfl, fun _ holdsValue => takeMove_readResult_of_valid holdsValue⟩

end Sys2Proof.Machine

/-! ## The request word, its decoder and its assembler (30_encoding.md) -/

namespace Sys2Proof

/-! ### Fields -/

/-- Masking one packed word by another masks byte by byte. -/
theorem packRequest_and (op b0 b1 b2 b3 b4 b5 op' c0 c1 c2 c3 c4 c5 : Byte) :
    packRequest op b0 b1 b2 b3 b4 b5 &&& packRequest op' c0 c1 c2 c3 c4 c5 =
      packRequest (op &&& op') (b0 &&& c0) (b1 &&& c1) (b2 &&& c2) (b3 &&& c3) (b4 &&& c4) (b5 &&& c5) := by
  simp only [packRequest, ← BitVec.and_append]

/-- The mask of every row keeps the opcode and clears the operand bytes (30_encoding.md R53). -/
theorem and_rowMask (r : Request) : r &&& rowMask = packRequest (reqOp r) 0 0 0 0 0 0 :=
  calc r &&& rowMask
    _ = packRequest (reqOp r) (reqB0 r) (reqB1 r) (reqB2 r) (reqB3 r) (reqB4 r) (reqB5 r) &&&
          packRequest (BitVec.allOnes 8) 0 0 0 0 0 0 := congrArg (· &&& rowMask) (packRequest_fields r).symm
    _ = packRequest (reqOp r) 0 0 0 0 0 0 := by
      rw [packRequest_and, BitVec.and_allOnes]
      simp only [BitVec.ofNat_eq_ofNat, BitVec.and_zero]

/-- A word meets a row's match word under the mask exactly when its opcode is the row's. -/
theorem and_rowMask_eq_iff (r : Request) (op : Byte) : r &&& rowMask = packRequest op 0 0 0 0 0 0 ↔ reqOp r = op := by
  rw [and_rowMask]
  refine ⟨fun same => ?_, fun same => by rw [same]⟩
  simpa using congrArg reqOp same

/-- The decoder as one chain of tests on the opcode (30_encoding.md R52). -/
theorem decode_eq_ite (r : Request) :
    decode r =
      if reqOp r = 0x01 then .ok (.crc8 (reqB0 r) (reqB1 r))
      else if reqOp r = 0x02 then .ok (.chk (reqB0 r) (reqB1 r) (reqB2 r))
      else if reqOp r = 0x03 then .ok (.dect (reqB0 r) (reqB1 r))
      else if reqOp r = 0x04 then .ok (.decrh (reqB0 r) (reqB1 r))
      else if reqOp r = 0x05 then .ok (.meas (reqB0 r) (reqB1 r) (reqB2 r) (reqB3 r) (reqB4 r) (reqB5 r))
      else if reqOp r = 0x06 then .ok (.ser (reqB0 r) (reqB1 r) (reqB2 r) (reqB3 r) (reqB4 r) (reqB5 r))
      else .error (.illegalOpcode (reqOp r)) := by
  rcases op_cases (reqOp r) with hop | hop | hop | hop | hop | hop | hop
  · simp [decode_crc8 r hop, hop]
  · simp [decode_chk r hop, hop]
  · simp [decode_dect r hop, hop]
  · simp [decode_decrh r hop, hop]
  · simp [decode_meas r hop, hop]
  · simp [decode_ser r hop, hop]
  · rw [decode_illegal r hop]
    simp only [legalOps, List.mem_cons, List.not_mem_nil, or_false, not_or] at hop
    simp only [hop, if_false]

/-- Settles O3: under the mask a match word tells the opcode, and a field taken by a shift is the field. -/
theorem decodeByMaskAndMatch : Obligations.DecodeByMaskAndMatch := by
  intro r
  rw [decode_eq_ite]
  simp only [← and_rowMask_eq_iff, BitVec.setWidth_ushiftRight_eq_extractLsb]
  -- What differs is written out: the mask and the match words as literals, and each field as its bits.
  rfl

/-- Settles O4: a word is rebuilt from its fields, and a packed word is the sum of its bytes at their weights. -/
theorem requestFieldLayout : Obligations.RequestFieldLayout := by
  refine ⟨fun r => ?_, rfl⟩
  rw [← packRequest_toNat, packRequest_fields]

/-! ### Decoding a packed word: the bytes not read do not matter -/

@[simp] theorem decode_pack_crc8 (b0 b1 b2 b3 b4 b5 : Byte) :
    decode (packRequest 0x01 b0 b1 b2 b3 b4 b5) = .ok (.crc8 b0 b1) := by
  rw [decode_crc8 _ (reqOp_pack ..), reqB0_pack, reqB1_pack]

@[simp] theorem decode_pack_chk (b0 b1 b2 b3 b4 b5 : Byte) :
    decode (packRequest 0x02 b0 b1 b2 b3 b4 b5) = .ok (.chk b0 b1 b2) := by
  rw [decode_chk _ (reqOp_pack ..), reqB0_pack, reqB1_pack, reqB2_pack]

@[simp] theorem decode_pack_dect (b0 b1 b2 b3 b4 b5 : Byte) :
    decode (packRequest 0x03 b0 b1 b2 b3 b4 b5) = .ok (.dect b0 b1) := by
  rw [decode_dect _ (reqOp_pack ..), reqB0_pack, reqB1_pack]

@[simp] theorem decode_pack_decrh (b0 b1 b2 b3 b4 b5 : Byte) :
    decode (packRequest 0x04 b0 b1 b2 b3 b4 b5) = .ok (.decrh b0 b1) := by
  rw [decode_decrh _ (reqOp_pack ..), reqB0_pack, reqB1_pack]

@[simp] theorem decode_pack_meas (b0 b1 b2 b3 b4 b5 : Byte) :
    decode (packRequest 0x05 b0 b1 b2 b3 b4 b5) = .ok (.meas b0 b1 b2 b3 b4 b5) := by
  rw [decode_meas _ (reqOp_pack ..), reqB0_pack, reqB1_pack, reqB2_pack, reqB3_pack, reqB4_pack, reqB5_pack]

@[simp] theorem decode_pack_ser (b0 b1 b2 b3 b4 b5 : Byte) :
    decode (packRequest 0x06 b0 b1 b2 b3 b4 b5) = .ok (.ser b0 b1 b2 b3 b4 b5) := by
  rw [decode_ser _ (reqOp_pack ..), reqB0_pack, reqB1_pack, reqB2_pack, reqB3_pack, reqB4_pack, reqB5_pack]

/-- Settles O5: each opcode by the decoding of its packed word; the encoder writes the zeros itself. -/
theorem unreadBytesIgnored : Obligations.UnreadBytesIgnored :=
  fun b0 b1 b2 b3 b4 b5 =>
    ⟨⟨decode_pack_crc8 b0 b1 b2 b3 b4 b5, rfl⟩, ⟨decode_pack_chk b0 b1 b2 b3 b4 b5, rfl⟩,
      ⟨decode_pack_dect b0 b1 b2 b3 b4 b5, rfl⟩, ⟨decode_pack_decrh b0 b1 b2 b3 b4 b5, rfl⟩,
      ⟨decode_pack_meas b0 b1 b2 b3 b4 b5, rfl⟩, ⟨decode_pack_ser b0 b1 b2 b3 b4 b5, rfl⟩⟩

/-! ### The assembler -/

@[simp] theorem Mnemonic.find_name (m : Mnemonic) : Mnemonic.find m.name = some m := by
  cases m <;> rfl

end Sys2Proof

namespace Sys2Proof.Machine

/-- The pseudo-operations stand for the operation `MEAS` stands for (30_encoding.md R60). -/
theorem buildInstr_pseudo : ∀ bs : List Byte,
    buildInstr .temp bs = buildInstr .meas bs ∧ buildInstr .rhum bs = buildInstr .meas bs
  | [] | [_] | [_, _] | [_, _, _] | [_, _, _, _] | [_, _, _, _, _] | [_, _, _, _, _, _] => ⟨rfl, rfl⟩
  | _ :: _ :: _ :: _ :: _ :: _ :: _ :: _ => ⟨rfl, rfl⟩

/-- A mnemonic enters the assembled line through the operation it stands for alone. -/
theorem assembleSource_congr {m m' : Mnemonic} (same : ∀ bs, buildInstr m bs = buildInstr m' bs) (vs : List Nat) :
    assembleSource { word := m.name, operands := vs } = assembleSource { word := m'.name, operands := vs } := by
  simp only [assembleSource, Mnemonic.find_name, same, SourceLine.bytesInRange]
  rfl

/-- A mnemonic with byte operands that build an operation assembles to its canonical request. -/
theorem assembleSource_bytes {m : Mnemonic} {bs : List Byte} {i : Instr} (builds : buildInstr m bs = some i) :
    assembleSource { word := m.name, operands := bs.map BitVec.toNat } = .ok (encode i) := by
  have inRange : SourceLine.bytesInRange { word := m.name, operands := bs.map BitVec.toNat } = true := by
    refine List.all_eq_true.mpr fun v isOperand => ?_
    obtain ⟨b, _, rfl⟩ := List.mem_map.mp isOperand
    exact decide_eq_true b.isLt
  have readBack : (bs.map BitVec.toNat).map (fun v => BitVec.ofNat 8 v) = bs := by
    simp [Function.comp_def]
  simp only [assembleSource, Mnemonic.find_name, readBack, builds, inRange, if_true]

/-- Settles O8: `TEMP` and `RHUM` stand for the operation of `MEAS`, and six bytes always build it. -/
theorem pseudoOperationsAssembleToMeas : Obligations.PseudoOperationsAssembleToMeas :=
  ⟨fun vs => ⟨assembleSource_congr (fun bs => (buildInstr_pseudo bs).1) vs,
      assembleSource_congr (fun bs => (buildInstr_pseudo bs).2) vs⟩,
    fun b0 b1 b2 b3 b4 b5 => assembleSource_bytes (m := .temp) (bs := [b0, b1, b2, b3, b4, b5]) rfl⟩

/-! ### Illegal opcodes -/

/-- Settles O20: an illegal request raises `IllegalOperation`, whose whole effect is `raise_illegal`. -/
theorem illegalOpcodeReported : Obligations.IllegalOpcodeReported := by
  refine ⟨fun r s illegal => ?_, by decide +kernel, fun s => ⟨?_, ?_⟩⟩
  · rw [acceptRequest_illegal illegal, raise_illegal]
  · rw [afterRequest_illegal (by decide), raise_illegal]
  · rw [afterRequest_illegal (by decide), raise_illegal]

end Sys2Proof.Machine

/-! ## The checksum operations (40_checksum.md) -/

namespace Sys2Proof.Machine

/-- A request that decodes to an operation is accepted with that operation's outcome (30_encoding.md R53). -/
theorem exec_and_acceptRequest {r : Request} {i : Instr} {s u : State} (hd : decode r = .ok i)
    (he : exec i s = .next u) : exec i s = .next u ∧ acceptRequest r s = .next u :=
  ⟨he, (acceptRequest_legal hd s).trans he⟩

/-- `CRC8` as one update of the state (40_checksum.md R73). -/
theorem exec_crc8_eq (b0 b1 : Byte) (s : State) :
    exec (.crc8 b0 b1) s =
      .next { s with crc := some (crc8 b0 b1), err := false, which := 0, ill := false } := rfl

theorem fieldOk_eq_decide (d0 d1 c : Byte) : fieldOk d0 d1 c = decide (crc8 d0 d1 = c) := by
  rw [Bool.eq_iff_iff, fieldOk_iff, decide_eq_true_iff]

/-- `CHK` as one update of the state: the outcome flags are cleared on a mismatch too (40_checksum.md R77). -/
theorem exec_chk_eq (b0 b1 b2 : Byte) (s : State) :
    exec (.chk b0 b1 b2) s =
      .next { s with matchBit := decide (crc8 b0 b1 = b2), err := false, which := 0, ill := false } := by
  rw [← fieldOk_eq_decide]; rfl

theorem afterRequest_crc8_crc {r : Request} (h : reqOp r = 0x01) (s : State) :
    (afterRequest r s).crc = some (crc8 (reqB0 r) (reqB1 r)) := by
  rw [afterRequest_crc8 h, State.succeed_crc, State.writeCrc_crc]

theorem afterRequest_chk_matchBit {r : Request} (h : reqOp r = 0x02) (s : State) :
    (afterRequest r s).matchBit = fieldOk (reqB0 r) (reqB1 r) (reqB2 r) := by
  rw [afterRequest_chk h, State.succeed_matchBit, State.setMatch_matchBit]

/-- Settles O11: the packed word decodes to `CRC8` whatever its unread bytes are, and the checksums are computed. -/
theorem crc8Rule : Obligations.Crc8Rule := by
  refine ⟨fun b0 b1 b2 b3 b4 b5 s => ?_, by decide +kernel, by decide +kernel, by decide +kernel, fun s => ?_,
    by decide, by decide⟩
  · exact exec_and_acceptRequest (decode_pack_crc8 b0 b1 b2 b3 b4 b5) (exec_crc8_eq b0 b1 s)
  · have checksum : crc8 (reqB0 0x01BEEF00000000) (reqB1 0x01BEEF00000000) = 0x92 := by decide +kernel
    rw [afterRequest_crc8_crc (by decide), checksum]

/-- Settles O12: the packed word decodes to `CHK` whatever its unread bytes are; every other request keeps `MATCH` by the
frame of its opcode. -/
theorem chkRule : Obligations.ChkRule := by
  refine ⟨fun b0 b1 b2 b3 b4 b5 s => ?_, by decide +kernel, by decide +kernel, fun s => ⟨?_, ?_⟩,
    fun r s notChk => ?_⟩
  · exact exec_and_acceptRequest (decode_pack_chk b0 b1 b2 b3 b4 b5) (exec_chk_eq b0 b1 b2 s)
  · rw [afterRequest_chk_matchBit (by decide)]
    decide +kernel
  · rw [afterRequest_chk_matchBit (by decide)]
    decide +kernel
  · exact (afterRequest_keepsUnwritten r s).matchBit notChk

end Sys2Proof.Machine

/-! ## The decoders (41_decode.md) -/

namespace Sys2Proof.Machine

/-! ### Rounding -/

theorem q16_eq_round (v : Rat) : q16 v = round (v * 65536) := by
  rw [q16_eq, round_eq]

/-- Rounding to the nearest multiple of `2^-16` is off by at most half of it (41_decode.md R90). -/
theorem abs_q16_div_sub_le (v : Rat) : |(q16 v : Rat) / 65536 - v| ≤ 1 / 131072 := by
  have nearest : |v * 65536 - (q16 v : Rat)| ≤ 1 / 2 := by
    rw [q16_eq_round]
    exact abs_sub_round _
  rw [abs_le] at nearest ⊢
  constructor <;> linarith

/-- The integer form is the rounding of the exact quotient: `65536 / 65535` is `1 + 1 / 65535`, so the scaled quotient is `n`
and a remainder (41_decode.md R90). -/
theorem q16_div_rawDivisor (n : Int) : q16 ((n : Rat) / 65535) = q16Num n := by
  have scaled : (n : Rat) / 65535 * 65536 + 1 / 2 = n + ((2 * n + 65535 : Int) : Rat) / (131070 : Nat) := by
    push_cast
    ring
  rw [q16_eq, scaled, Int.floor_intCast_add, Rat.floor_intCast_div_natCast, Nat.cast_ofNat, q16Num_eq]

theorem q16Num_eq_fdiv (n : Int) : q16Num n = n + Int.fdiv (2 * n + 65535) 131070 := rfl

/-- A tie would make the even number `131072 * n` the product of two odd numbers (41_decode.md R90). -/
theorem fract_scaled_ne_half (n : Int) : Int.fract ((n : Rat) / 65535 * 65536) ≠ 1 / 2 := by
  intro tie
  have half := Int.floor_add_fract ((n : Rat) / 65535 * 65536)
  rw [tie] at half
  generalize ⌊(n : Rat) / 65535 * 65536⌋ = z at half
  have parity : 131072 * n = 65535 * (2 * z + 1) := by
    have cleared : (131072 * n : Rat) = 65535 * (2 * z + 1) := by linarith
    exact_mod_cast cleared
  omega

/-- Settles O34: `q16` is Mathlib's `round` of the scaled value, and the fraction 65535 leaves no tie. -/
theorem roundingIsNearest : Obligations.RoundingIsNearest :=
  ⟨fun v => ⟨q16_eq v, abs_q16_div_sub_le v⟩,
    fun n => ⟨(q16_div_rawDivisor n).trans (q16Num_eq_fdiv n), fract_scaled_ne_half n⟩⟩

/-! ### The exact values as fractions of 65535 -/

theorem tempVal_eq_tempNum_div (raw : Raw) : tempVal raw = (tempNum raw : Rat) / 65535 := by
  rw [tempVal_eq, tempNum_eq]
  push_cast
  ring

theorem humPre_eq_humNum_div (raw : Raw) : humPre raw = (humNum raw : Rat) / 65535 := by
  rw [humPre_eq, humNum_eq]
  push_cast
  ring

/-- The exact humidity from a computed numerator (41_decode.md R97). -/
theorem humPre_of_humNum {raw : Raw} {n : Int} (h : humNum raw = n) : humPre raw = (n : Rat) / 65535 := by
  rw [humPre_eq_humNum_div, h]

/-! ### The humidity clamp -/

/-- `hum_num` is 0 at no raw value, 125 not dividing 393210 (41_decode.md R98). -/
theorem humNum_ne_zero (raw : Raw) : humNum raw ≠ 0 := by
  rw [humNum_eq]
  omega

/-- `hum_num` is that of 100 %RH at no raw value, 125 not dividing 6946710 (41_decode.md R98). -/
theorem humNum_ne_hundred (raw : Raw) : humNum raw ≠ 6553500 := by
  rw [humNum_eq]
  omega

theorem humPre_ne_zero (raw : Raw) : humPre raw ≠ 0 := by
  rw [humPre_eq_humNum_div]
  exact div_ne_zero (Int.cast_ne_zero.mpr (humNum_ne_zero raw)) (by norm_num)

theorem humPre_ne_hundred (raw : Raw) : humPre raw ≠ 100 := by
  intro met
  rw [humPre_eq_humNum_div, div_eq_iff (by norm_num)] at met
  have cleared : (humNum raw : Rat) = 6553500 := by linarith
  exact humNum_ne_hundred raw (by exact_mod_cast cleared)

/-- The lower threshold of the clamp (41_decode.md R98). -/
theorem humPre_neg_iff (raw : Raw) : humPre raw < 0 ↔ raw.toNat ≤ 3145 := by
  rw [humPre_eq_humNum_div, div_lt_iff₀ (by norm_num), zero_mul, Int.cast_lt_zero, humNum_eq]
  omega

/-- The upper threshold of the clamp (41_decode.md R98). -/
theorem hundred_lt_humPre_iff (raw : Raw) : 100 < humPre raw ↔ 55574 ≤ raw.toNat := by
  have scaled : 100 < humPre raw ↔ 6553500 < humNum raw := by
    rw [humPre_eq_humNum_div, lt_div_iff₀ (by norm_num), ← Int.cast_lt (R := Rat)]
    norm_num
  rw [scaled, humNum_eq]
  omega

theorem humVal_eq (raw : Raw) :
    humVal raw = if humPre raw < 0 then 0 else if 100 < humPre raw then 100 else humPre raw := by
  simp [humVal, clamp, Config.humLow, Config.humHigh]

/-- The clamp in terms of the raw value (41_decode.md R98). -/
theorem humVal_eq_of_toNat (raw : Raw) :
    humVal raw = if raw.toNat ≤ 3145 then 0 else if 55574 ≤ raw.toNat then 100 else humPre raw := by
  simp only [humVal_eq, humPre_neg_iff, hundred_lt_humPre_iff]

/-- Settles O39: the two thresholds as inequalities between integers, and divisibility by 125 at the bounds. -/
theorem humidityClamp : Obligations.HumidityClamp := by
  intro raw
  refine ⟨humVal_eq raw, fun low => ?_, fun high => ?_, fun above below => ?_, humNum_ne_zero raw, humNum_ne_hundred raw,
    humPre_ne_zero raw, humPre_ne_hundred raw⟩
  · rw [humVal_eq_of_toNat, if_pos low]
  · rw [humVal_eq_of_toNat, if_neg (by omega), if_pos high]
  · rw [humVal_eq_of_toNat, if_neg (by omega), if_neg (by omega)]

/-! ### `DECT` and `DECRH` -/

theorem tempNum_be16 (b0 b1 : Byte) :
    tempNum (be16 b0 b1) = 315 * ((b0.toNat * 256 + b1.toNat : Nat) : Int) - 3211215 := by
  rw [tempNum_eq, be16_toNat]

theorem humNum_be16 (b0 b1 : Byte) :
    humNum (be16 b0 b1) = 125 * ((b0.toNat * 256 + b1.toNat : Nat) : Int) - 393210 := by
  rw [humNum_eq, be16_toNat]

/-- `hum_fx` with the clamp and the rounding written out (41_decode.md R99). -/
theorem humFx_eq_fdiv (raw : Raw) :
    humFx raw = if humNum raw ≤ 0 then 0 else if 6553500 ≤ humNum raw then 6553600
      else humNum raw + Int.fdiv (2 * humNum raw + 65535) 131070 := rfl

/-- `DECT` as one update of the state (41_decode.md R94). -/
theorem exec_dect_eq (b0 b1 : Byte) (s : State) :
    exec (.dect b0 b1) s =
      .next { s with t := some (tempBits (be16 b0 b1)), err := false, which := 0, ill := false } := rfl

/-- `DECRH` as one update of the state: a clamp leaves no trace in STATUS (41_decode.md R100). -/
theorem exec_decrh_eq (b0 b1 : Byte) (s : State) :
    exec (.decrh b0 b1) s =
      .next { s with rh := some (humBits (be16 b0 b1)), err := false, which := 0, ill := false } := rfl

theorem afterRequest_dect_t {r : Request} (h : reqOp r = 0x03) (s : State) :
    (afterRequest r s).t = some (tempBits (be16 (reqB0 r) (reqB1 r))) := by
  rw [afterRequest_dect h, State.succeed_t, State.writeT_t]

theorem afterRequest_decrh_rh {r : Request} (h : reqOp r = 0x04) (s : State) :
    (afterRequest r s).rh = some (humBits (be16 (reqB0 r) (reqB1 r))) := by
  rw [afterRequest_decrh h, State.succeed_rh, State.writeRh_rh]

/-- The sign of the temperature changes between raw 10194 and 10195 (41_decode.md R94). -/
theorem tempFx_neg_iff (raw : Raw) : tempFx raw < 0 ↔ raw.toNat ≤ 10194 := by
  rw [tempFx_eq, tempNum_eq]
  omega

theorem tempFx_pos_iff (raw : Raw) : 0 < tempFx raw ↔ 10195 ≤ raw.toNat := by
  rw [tempFx_eq, tempNum_eq]
  omega

theorem tempFx_ne_zero (raw : Raw) : tempFx raw ≠ 0 := by
  rw [tempFx_eq, tempNum_eq]
  omega

/-- Settles O13: the packed word decodes to `DECT` whatever its unread bytes are, and the numerator is that of the two bytes;
the corner cases are computed. -/
theorem dectRule : Obligations.DectRule := by
  refine ⟨fun b0 b1 b2 b3 b4 b5 s => ?_, fun raw => ⟨tempFx_neg_iff raw, tempFx_pos_iff raw, tempFx_ne_zero raw⟩,
    by decide, by decide, by decide, by decide, by decide, by decide, ?_, by decide, fun s => ?_⟩
  · simp only [← tempNum_be16, ← q16Num_eq_fdiv]
    exact exec_and_acceptRequest (decode_pack_dect b0 b1 b2 b3 b4 b5) (exec_dect_eq b0 b1 s)
  · have numerator : tempNum 0x642C = 4866645 := by decide
    rw [tempVal_eq_tempNum_div, numerator]
    norm_num
  · rw [afterRequest_dect_t (by decide)]
    decide

/-- Settles O14: the packed word decodes to `DECRH` whatever its unread bytes are, and the numerator is that of the two bytes;
the corner cases are computed. -/
theorem decrhRule : Obligations.DecrhRule := by
  refine ⟨fun b0 b1 b2 b3 b4 b5 s => ?_, by decide, by decide, by decide, by decide, by decide, by decide,
    ?_, ?_, ?_, ?_, by decide, ?_, by decide, fun s => ?_⟩
  · simp only [← humNum_be16, ← humFx_eq_fdiv]
    exact exec_and_acceptRequest (decode_pack_decrh b0 b1 b2 b3 b4 b5) (exec_decrh_eq b0 b1 s)
  · exact (humPre_of_humNum (n := -393210) (by decide)).trans (by norm_num)
  · exact (humPre_of_humNum (n := 7798665) (by decide)).trans (by norm_num)
  · exact humPre_of_humNum (n := -85) (by decide)
  · exact humPre_of_humNum (n := 40) (by decide)
  · exact humPre_of_humNum (n := 2545790) (by decide)
  · rw [afterRequest_decrh_rh (by decide)]
    decide

end Sys2Proof.Machine

/-! ## The frame family (42_frame.md) -/

namespace Sys2Proof.Machine

/-! ### The frame check -/

/-- The first field is checked first, and its failure hides the second's (42_frame.md R112, R114). -/
theorem firstFailing_eq_ite (q1 q2 : Quantity) (b0 b1 b2 b3 b4 b5 : Byte) :
    firstFailing q1 q2 b0 b1 b2 b3 b4 b5 =
      if crc8 b0 b1 ≠ b2 then some q1 else if crc8 b3 b4 ≠ b5 then some q2 else none := by
  simp only [firstFailing, fieldOk_iff, ite_not]

/-! ### `MEAS` and `SER` as one update of the state -/

/-- `MEAS` as one update of the state: success writes both results, an error empties both (42_frame.md R111). -/
theorem exec_meas_eq (b0 b1 b2 b3 b4 b5 : Byte) (s : State) :
    exec (.meas b0 b1 b2 b3 b4 b5) s = .next (
      if crc8 b0 b1 ≠ b2 then { s with t := none, rh := none, err := true, which := 2, ill := false }
      else if crc8 b3 b4 ≠ b5 then { s with t := none, rh := none, err := true, which := 3, ill := false }
      else { s with
        t := some (tempBits (be16 b0 b1)), rh := some (humBits (be16 b3 b4)),
        err := false, which := 0, ill := false }) := by
  simp only [exec, execMeas, firstFailing_eq_ite]
  split_ifs
  · rfl
  · rfl
  · rfl

/-- `SER` as one update of the state: success writes the serial number, an error empties it (42_frame.md R113). -/
theorem exec_ser_eq (b0 b1 b2 b3 b4 b5 : Byte) (s : State) :
    exec (.ser b0 b1 b2 b3 b4 b5) s = .next (
      if crc8 b0 b1 ≠ b2 then { s with sn := none, err := true, which := 0, ill := false }
      else if crc8 b3 b4 ≠ b5 then { s with sn := none, err := true, which := 1, ill := false }
      else { s with sn := some (serialWord b0 b1 b3 b4), err := false, which := 0, ill := false }) := by
  simp only [exec, execSer, firstFailing_eq_ite]
  split_ifs
  · rfl
  · rfl
  · rfl

theorem afterRequest_ser_sn {r : Request} (h : reqOp r = 0x06) (ok : refError r = none) (s : State) :
    (afterRequest r s).sn = some (serialWord (reqB0 r) (reqB1 r) (reqB3 r) (reqB4 r)) := by
  rw [afterRequest_ser h ok, State.succeed_sn, State.writeSn_sn]

/-! ### The error STATUS reports -/

theorem reported_raise (s : State) (e : OpError) : (s.raise e).reported = some e := by
  rcases e with q | _
  · cases q <;> rfl
  · rfl

theorem reported_succeed (s : State) : s.succeed.reported = none := rfl

/-- STATUS after a request reports the one error the request word raises, whatever was there before (60_exceptions.md R130). -/
theorem afterRequest_reported (r : Request) (s : State) : (afterRequest r s).reported = refError r := by
  rcases he : refError r with _ | e
  · obtain ⟨w, hw⟩ := afterRequest_noError he s
    rw [hw, reported_succeed]
  · rw [afterRequest_error he, reported_raise]

/-- Settles O15: the packed word decodes to `MEAS` with the outcome of its frame check; the corner cases by the error of the
word, the example by running it. -/
theorem measRule : Obligations.MeasRule := by
  refine ⟨fun b0 b1 b2 b3 b4 b5 s => ?_, fun s => ?_, by decide +kernel, by decide +kernel, by decide +kernel⟩
  · exact exec_and_acceptRequest (decode_pack_meas b0 b1 b2 b3 b4 b5) (exec_meas_eq b0 b1 b2 b3 b4 b5 s)
  · simp only [afterRequest_reported]
    decide +kernel

/-- Settles O16: the packed word decodes to `SER` with the outcome of its frame check, the serial number as shifts and ors;
both extreme values come from valid frames. -/
theorem serRule : Obligations.SerRule := by
  refine ⟨fun b0 b1 b2 b3 b4 b5 s => ?_, fun s => ⟨?_, ?_⟩, by decide +kernel, by decide +kernel⟩
  · simp only [← serialWord_eq_shifts]
    exact exec_and_acceptRequest (decode_pack_ser b0 b1 b2 b3 b4 b5) (exec_ser_eq b0 b1 b2 b3 b4 b5 s)
  · rw [afterRequest_ser_sn (by decide) (by decide +kernel)]
    decide
  · rw [afterRequest_ser_sn (by decide) (by decide +kernel)]
    decide

/-! ### The wrappers `TEMP` and `RHUM` -/

/-- The host reads no register when STATUS shows an error (42_frame.md R115). -/
theorem hostReads_of_err {s : State} (h : s.err = true) (value : Except Fault Word32) :
    hostReads s value = .error (.checksum (Quantity.ofCode s.which)) := if_pos h

theorem hostReads_of_no_err {s : State} (h : s.err = false) (v : Word32) : hostReads s (.ok v) = .ok v := by
  simp [hostReads, h]

/-- Settles O19: both wrappers read STATUS after the one `MEAS`, so an invalid field fails them whichever register they want. -/
theorem wrappersValidateBothFields : Obligations.WrappersValidateBothFields := by
  intro b0 b1 b2 b3 b4 b5 s
  have afterMeas : afterRequest (encode (.meas b0 b1 b2 b3 b4 b5)) s = _ :=
    afterRequest_eq_of_exec (decode_pack_meas b0 b1 b2 b3 b4 b5) (exec_meas_eq b0 b1 b2 b3 b4 b5 s)
  simp only [pseudoTemp, pseudoRhum, afterMeas]
  split_ifs with badTemperature badHumidity
  · exact ⟨hostReads_of_err rfl _, hostReads_of_err rfl _⟩
  · exact ⟨hostReads_of_err rfl _, hostReads_of_err rfl _⟩
  · exact ⟨hostReads_of_no_err rfl _, hostReads_of_no_err rfl _⟩

end Sys2Proof.Machine

/-! ## Errors (60_exceptions.md) -/

namespace Sys2Proof.Machine

/-! ### Which request raises which error -/

theorem refError_eq_illegal_iff (r : Request) : refError r = some .illegalOperation ↔ reqOp r ∉ legalOps := by
  refine ⟨fun h => ?_, refError_illegal⟩
  unfold refError at h
  split_ifs at h <;> cases h
  assumption

theorem frameOp_eq_meas_or_ser (q : Quantity) : q.frameOp = 0x05 ∨ q.frameOp = 0x06 := by
  cases q <;> simp [Quantity.frameOp]

/-- Settles O22: the outcome is the error of the request word, which STATUS reports from every state. -/
theorem outcomeFixedByRequest : Obligations.OutcomeFixedByRequest := by
  intro r
  refine ⟨refError r, fun s => ⟨(acceptRequest_eq r s).1, afterRequest_reported r s⟩, refError_eq_illegal_iff r, ?_⟩
  intro q raised
  rw [reqOp_of_checksumError raised]
  exact frameOp_eq_meas_or_ser q

/-- Settles O24: the error STATUS reports is the one the request raised, and raising it is all the request does. -/
theorem errorEffectIsExact : Obligations.ErrorEffectIsExact := by
  intro r s e reported
  rw [afterRequest_reported] at reported
  rw [afterRequest_error reported]
  match e with
  | .checksum .serialHalf1 => exact raise_serialHalf1 s
  | .checksum .serialHalf2 => exact raise_serialHalf2 s
  | .checksum .temperature => exact raise_temperature s
  | .checksum .humidity => exact raise_humidity s
  | .illegalOperation => exact raise_illegal s

/-- Settles O21: the four other operations always succeed; `MEAS` and `SER` end in one of three ways, by their first and then
their second field. -/
theorem checksumErrorCauses : Obligations.ChecksumErrorCauses := by
  intro i s
  cases i with
  | crc8 b0 b1 => exact ⟨_, rfl, by simp⟩
  | chk b0 b1 b2 => exact ⟨_, rfl, by simp⟩
  | dect b0 b1 => exact ⟨_, rfl, by simp⟩
  | decrh b0 b1 => exact ⟨_, rfl, by simp⟩
  | meas b0 b1 b2 b3 b4 b5 =>
    refine ⟨_, exec_meas_eq b0 b1 b2 b3 b4 b5 s, ?_⟩
    split_ifs with badTemperature badHumidity
    · simp [badTemperature, badTemperature.symm]
    · simp [not_ne_iff.mp badTemperature, badHumidity]
    · simp [not_ne_iff.mp badTemperature, not_ne_iff.mp badHumidity]
  | ser b0 b1 b2 b3 b4 b5 =>
    refine ⟨_, exec_ser_eq b0 b1 b2 b3 b4 b5 s, ?_⟩
    split_ifs with badHalf1 badHalf2
    · simp [badHalf1, badHalf1.symm]
    · simp [not_ne_iff.mp badHalf1, badHalf2]
    · simp [not_ne_iff.mp badHalf1, not_ne_iff.mp badHalf2]

/-! ### Reading a register that may hold no value -/

theorem valueOf_error_iff {α : Type} (r : ResultReg) (o : Option α) :
    valueOf r o = .error (.readOfNoValue r) ↔ o.isSome = false := by
  cases o <;> simp [valueOf]

/-- Settles O47: a request ends in the state `afterRequest` names, with the flags of the error of its word; a read is `valueOf` of
the register. -/
theorem errorsAreStatesAndEmptyReadsFault : Obligations.ErrorsAreStatesAndEmptyReadsFault := by
  refine ⟨fun r s => ⟨afterRequest r s, (acceptRequest_eq r s).1, ?_, ?_⟩, fun s => ?_⟩
  · rw [afterRequest_err]; exact outcomeFlags_err_iff _
  · rw [afterRequest_ill]; exact outcomeFlags_ill_iff _
  · exact ⟨valueOf_ok_iff _ _, valueOf_error_iff _ _, valueOf_ok_iff _ _, valueOf_error_iff _ _,
      valueOf_ok_iff _ _, valueOf_error_iff _ _, valueOf_ok_iff _ _, valueOf_error_iff _ _⟩

end Sys2Proof.Machine

/-! ## Reset (70_reset_and_hazards.md) -/

namespace Sys2Proof.Machine

/-! ### Reset as a move of the host -/

/-- Nothing of the state before it survives a reset but the host's later moves. -/
theorem assertRst_setMoves_nil (s : State) : s.assertRst.setMoves [] = State.reset := rfl

theorem step_of_assertRst {s : State} {later : List HostMove} (head : s.hostMoves = .assertRst :: later) :
    step s = .next (s.setMoves later).assertRst := by
  simp only [step, advance, head, takeMove]

/-! ### Reset at the ports -/

theorem accepts_of_rst {i : Inputs} (rst : i.rst = true) (b : Block) : b.accepts i = false := by
  simp [Block.accepts, rst]

/-- Reset wins over a request that waits and over one in progress. -/
theorem cycle_of_rst {i : Inputs} (rst : i.rst = true) (latency : Nat) (b : Block) :
    b.cycle latency i =
      { core := b.core.assertRst, inFlight := none, respValid := false, cycles := b.cycles + 1 } :=
  if_pos rst

theorem statusWord_assertRst (s : State) : s.assertRst.statusWord = 0x0000 := statusWord_reset

/-- Settles O43: a step that asserts `rst`, and an edge with `rst` = 1, replace the registers by the reset values whatever stood
there, and the edge leaves the block idle. -/
theorem resetFromEveryState : Obligations.ResetFromEveryState := by
  refine ⟨fun s later head => ⟨_, step_of_assertRst head, assertRst_setMoves_nil _⟩, fun latency i b rst => ?_⟩
  rw [cycle_of_rst rst]
  exact ⟨accepts_of_rst rst b, assertRst_setMoves_nil b.core, rfl, rfl, rfl, statusWord_assertRst b.core⟩

end Sys2Proof.Machine

/-! ## The range of the decoders (41_decode.md, 43_other_classes.md) -/

namespace Sys2Proof.Machine

theorem tempFx_range (raw : Raw) : -3211264 ≤ tempFx raw ∧ tempFx raw ≤ 17432576 := by
  have inRange := raw.isLt
  rw [tempFx_eq, tempNum_eq]
  omega

theorem humFx_range (raw : Raw) : 0 ≤ humFx raw ∧ humFx raw ≤ 6553600 := by
  rw [humFx_eq]
  split_ifs <;> omega

/-- `T` holds `temp_fx` itself: the 32 bits lose nothing (43_other_classes.md R120). -/
theorem tempBits_toInt (raw : Raw) : (tempBits raw).toInt = tempFx raw := by
  have range := tempFx_range raw
  exact BitVec.toInt_ofInt_eq_self (by decide) (by omega) (by omega)

/-- `RH` holds `hum_fx` itself: the 32 bits lose nothing (43_other_classes.md R120). -/
theorem humBits_toInt (raw : Raw) : (humBits raw).toInt = humFx raw := by
  have range := humFx_range raw
  exact BitVec.toInt_ofInt_eq_self (by decide) (by omega) (by omega)

theorem humBits_msb (raw : Raw) : (humBits raw).msb = false := by
  rw [BitVec.msb_eq_toInt, humBits_toInt, decide_eq_false_iff_not, not_lt]
  exact (humFx_range raw).1

/-- Settles O40: the numerators are linear in a raw value below 65536, and 32 bits hold every rounded value. -/
theorem decodersNeverOverflow : Obligations.DecodersNeverOverflow := by
  intro raw
  have inRange := raw.isLt
  refine ⟨⟨tempNum_eq raw, ?_⟩, ⟨humNum_eq raw, ?_⟩, tempBits_toInt raw, humBits_toInt raw, humBits_msb raw⟩
  · rw [tempNum_eq]
    omega
  · rw [humNum_eq]
    omega

/-! ### Monotonicity -/

/-- Settles O37: one raw value more adds 315 to the numerator, and the rounding never goes back. -/
theorem temperatureIsMonotone : Obligations.TemperatureIsMonotone := by
  refine ⟨fun x y less => ?_, fun x y next => ?_, by decide, by decide, tempFx_range⟩
  · simp only [tempFx_eq, tempNum_eq]
    omega
  · simp only [tempFx_eq, tempNum_eq]
    omega

/-- Below the lower threshold of the clamp (41_decode.md R98). -/
theorem humFx_of_low {raw : Raw} (low : raw.toNat ≤ 3145) : humFx raw = 0 := by
  rw [humFx_eq, humNum_eq, if_pos (by omega)]

/-- Above the upper threshold of the clamp (41_decode.md R98). -/
theorem humFx_of_high {raw : Raw} (high : 55574 ≤ raw.toNat) : humFx raw = 6553600 := by
  rw [humFx_eq, humNum_eq, if_neg (by omega), if_pos (by omega)]

/-- Between the thresholds the rounded value is the register's (41_decode.md R99). -/
theorem humFx_of_mid {raw : Raw} (above : 3146 ≤ raw.toNat) (below : raw.toNat ≤ 55573) :
    humFx raw = q16Num (humNum raw) := by
  rw [humFx_eq, q16Num_eq, humNum_eq, if_neg (by omega), if_neg (by omega)]

theorem humFx_mono {x y : Raw} (le : x.toNat ≤ y.toNat) : humFx x ≤ humFx y := by
  simp only [humFx_eq, humNum_eq]
  split_ifs <;> omega

/-- Settles O38: the three pieces of the clamp; inside, one raw value more adds 125 to the numerator. -/
theorem humidityIsMonotone : Obligations.HumidityIsMonotone := by
  refine ⟨fun _ _ => humFx_mono, fun x => ⟨humFx_of_low, humFx_of_high, humFx_range x⟩,
    fun x y next above below => ?_, by decide, by decide⟩
  rw [humFx_of_mid (raw := y) (by omega) below, humFx_of_mid above (by omega)]
  simp only [q16Num_eq, humNum_eq]
  omega

/-! ### Exactness -/

@[simp] theorem q16_zero : q16 0 = 0 := by
  rw [q16_eq]; norm_num

@[simp] theorem q16_hundred : q16 100 = 6553600 := by
  rw [q16_eq]; norm_num

theorem tempFx_eq_q16 (raw : Raw) : tempFx raw = q16 (tempVal raw) := by
  rw [tempVal_eq_tempNum_div, q16_div_rawDivisor, tempFx]

theorem q16_humPre (raw : Raw) : q16 (humPre raw) = q16Num (humNum raw) := by
  rw [humPre_eq_humNum_div, q16_div_rawDivisor]

/-- Clamping before the rounding (41_decode.md R99). -/
theorem humFx_eq_q16 (raw : Raw) : humFx raw = q16 (humVal raw) := by
  rw [humVal_eq_of_toNat]
  split_ifs with low high
  · rw [humFx_of_low low, q16_zero]
  · rw [humFx_of_high high, q16_hundred]
  · rw [humFx_of_mid (by omega) (by omega), q16_humPre]

/-- Clamping after the rounding. -/
theorem humFx_eq_max_min (raw : Raw) : humFx raw = max 0 (min 6553600 (q16 (humPre raw))) := by
  rw [q16_humPre, humFx_eq, q16Num_eq]
  split_ifs <;> omega

/-- The rounding of a fraction of 65535 is off by less than half a unit of the last place: no tie is met (41_decode.md R90). -/
theorem abs_q16_div_sub_lt (n : Int) : |(q16 ((n : Rat) / 65535) : Rat) / 65536 - (n : Rat) / 65535| < 1 / 2 ^ 17 := by
  refine lt_of_le_of_ne ((abs_q16_div_sub_le _).trans_eq (by norm_num)) fun tie => ?_
  rw [q16_div_rawDivisor] at tie
  generalize q16Num n = m at tie
  rcases eq_or_eq_neg_of_abs_eq tie with half | half
  · have cleared : (2 * 65535 * m : Rat) = 2 * 65536 * n + 65535 := by linarith
    have parity : 2 * 65535 * m = 2 * 65536 * n + 65535 := by exact_mod_cast cleared
    omega
  · have cleared : (2 * 65535 * m + 65535 : Rat) = 2 * 65536 * n := by linarith
    have parity : 2 * 65535 * m + 65535 = 2 * 65536 * n := by exact_mod_cast cleared
    omega

/-- The clamped humidity is a fraction of 65535 too: both bounds are. -/
theorem humVal_eq_div (raw : Raw) : ∃ n : Int, humVal raw = (n : Rat) / 65535 := by
  rw [humVal_eq_of_toNat]
  split_ifs
  · exact ⟨0, by norm_num⟩
  · exact ⟨6553500, by norm_num⟩
  · exact ⟨humNum raw, humPre_eq_humNum_div raw⟩

/-- Settles O35: the integer form is the rounding of a fraction of 65535. -/
theorem temperatureIsExact : Obligations.TemperatureIsExact := by
  intro raw
  refine ⟨by rw [← tempVal_eq, tempFx_eq_q16], tempFx_eq_q16 raw, ?_⟩
  rw [tempFx_eq_q16, tempVal_eq_tempNum_div]
  exact abs_q16_div_sub_lt _

/-- Settles O36: in each of the three pieces of the clamp the clamped value is a fraction of 65535. -/
theorem humidityIsExact : Obligations.HumidityIsExact := by
  intro raw
  refine ⟨humFx_eq_q16 raw, humFx_eq_max_min raw, humPre_eq raw, ?_⟩
  obtain ⟨n, isFraction⟩ := humVal_eq_div raw
  rw [humFx_eq_q16, isFraction]
  exact abs_q16_div_sub_lt n

end Sys2Proof.Machine

/-! ## The state invariant (10_state.md, 60_exceptions.md) -/

namespace Sys2Proof.Machine

/-- The two clauses of the invariant that speak of values: `T` and `RH` within their ranges (10_state.md R26, R27). -/
def State.InRange (s : State) : Prop :=
  (∀ v, s.t = some v → -3211264 ≤ v.toInt ∧ v.toInt ≤ 17432576) ∧ ∀ v, s.rh = some v → 0 ≤ v.toInt ∧ v.toInt ≤ 6553600

theorem State.Inv.inRange {s : State} (inv : s.Inv) : s.InRange := ⟨inv.t_range, inv.rh_range⟩

theorem State.InRange.writeT {s : State} (range : s.InRange) (raw : Raw) : (s.writeT (tempBits raw)).InRange := by
  refine ⟨fun v written => ?_, range.2⟩
  obtain rfl : tempBits raw = v := Option.some.inj written
  rw [tempBits_toInt]
  exact tempFx_range raw

theorem State.InRange.writeRh {s : State} (range : s.InRange) (raw : Raw) : (s.writeRh (humBits raw)).InRange := by
  refine ⟨range.1, fun v written => ?_⟩
  obtain rfl : humBits raw = v := Option.some.inj written
  rw [humBits_toInt]
  exact humFx_range raw

/-- With `ERR`, `WHICH` and `ILL` cleared only the ranges are left of the invariant. -/
theorem State.InRange.succeed {s : State} (range : s.InRange) : s.succeed.Inv where
  which_zero := fun _ => rfl
  ill_excludes_err := fun _ => rfl
  t_range := range.1
  rh_range := range.2
  measurement_failed := nofun
  serial_failed := nofun

/-- An error empties the registers of its own frame and writes no value (60_exceptions.md R136). -/
theorem State.InRange.raise {s : State} (range : s.InRange) (e : OpError) : (s.raise e).Inv := by
  obtain ⟨tRange, rhRange⟩ := range
  match e with
  | .checksum .serialHalf1 => constructor <;> simp_all [raise_serialHalf1]
  | .checksum .serialHalf2 => constructor <;> simp_all [raise_serialHalf2]
  | .checksum .temperature => constructor <;> simp_all [raise_temperature]
  | .checksum .humidity => constructor <;> simp_all [raise_humidity]
  | .illegalOperation => constructor <;> simp_all [raise_illegal]

/-- A request fixes the outcome flags and writes only decoded values, so the ranges before it give the invariant after it. -/
theorem State.InRange.afterRequest {s : State} (range : s.InRange) (r : Request) : (afterRequest r s).Inv := by
  rcases he : refError r with _ | e
  · rcases op_cases (reqOp r) with hop | hop | hop | hop | hop | hop | hop
    · rw [afterRequest_crc8 hop]; exact State.InRange.succeed range
    · rw [afterRequest_chk hop]; exact State.InRange.succeed range
    · rw [afterRequest_dect hop]; exact (range.writeT _).succeed
    · rw [afterRequest_decrh hop]; exact (range.writeRh _).succeed
    · rw [afterRequest_meas hop he]; exact ((range.writeT _).writeRh _).succeed
    · rw [afterRequest_ser hop he]; exact State.InRange.succeed range
    · simp [refError_illegal hop] at he
  · rw [afterRequest_error he]
    exact range.raise e

/-- The invariant does not speak of the host's moves. -/
theorem State.Inv.setMoves {s : State} (inv : s.Inv) (later : List HostMove) : (s.setMoves later).Inv :=
  ⟨inv.which_zero, inv.ill_excludes_err, inv.t_range, inv.rh_range, inv.measurement_failed, inv.serial_failed⟩

theorem State.inv_reset : State.reset.Inv := State.InRange.succeed (s := State.reset) ⟨nofun, nofun⟩

theorem State.inv_assertRst (s : State) : s.assertRst.Inv := State.inv_reset.setMoves s.hostMoves

/-- Settles O45: at reset nothing is reported and no register holds a value. -/
theorem invariantAtReset : Obligations.InvariantAtReset := State.inv_reset

/-- Settles O44: by what a step can do; a request gives the invariant anew, a reset the reset state, a read nothing new. -/
theorem stepKeepsInvariant : Obligations.StepKeepsInvariant := by
  intro s u inv stepped
  rcases advance_cases s with ⟨_, he⟩ | ⟨r, later, _, he⟩ | ⟨later, _, he⟩ | ⟨later, _, he⟩ | ⟨r, later, _, _, he⟩ |
    ⟨r, later, _, _, he⟩ <;> cases he.symm.trans stepped
  · exact inv
  · exact (inv.setMoves later).inRange.afterRequest r
  · exact State.inv_assertRst _
  · exact inv.setMoves later
  · exact inv.setMoves later

end Sys2Proof.Machine

/-! ## Decoding and encoding are inverse (30_encoding.md) -/

namespace Sys2Proof

/-- Settles O1: an encoded operation is a packed word with its own opcode. -/
theorem decodeOfEncode : Obligations.DecodeOfEncode := by
  intro i
  cases i with
  | crc8 b0 b1 => exact decode_pack_crc8 b0 b1 0 0 0 0
  | chk b0 b1 b2 => exact decode_pack_chk b0 b1 b2 0 0 0
  | dect b0 b1 => exact decode_pack_dect b0 b1 0 0 0 0
  | decrh b0 b1 => exact decode_pack_decrh b0 b1 0 0 0 0
  | meas b0 b1 b2 b3 b4 b5 => exact decode_pack_meas b0 b1 b2 b3 b4 b5
  | ser b0 b1 b2 b3 b4 b5 => exact decode_pack_ser b0 b1 b2 b3 b4 b5

/-- Masking a word by a packed mask masks it field by field. -/
theorem and_packRequest (r : Request) (m0 m1 m2 m3 m4 m5 m6 : Byte) :
    r &&& packRequest m0 m1 m2 m3 m4 m5 m6 =
      packRequest (reqOp r &&& m0) (reqB0 r &&& m1) (reqB1 r &&& m2) (reqB2 r &&& m3) (reqB3 r &&& m4) (reqB4 r &&& m5)
        (reqB5 r &&& m6) := by
  rw [← packRequest_and, packRequest_fields]

theorem byte_and_ones (b : Byte) : b &&& 0xFF = b := BitVec.and_allOnes

theorem byte_and_zero (b : Byte) : b &&& 0x00 = 0x00 := BitVec.and_zero

/-- The mask of the operations that read two operand bytes (20_memory.md R43). -/
theorem and_mask_two (r : Request) :
    r &&& 0xFFFFFF00000000 = packRequest (reqOp r) (reqB0 r) (reqB1 r) 0x00 0x00 0x00 0x00 := by
  have mask : (0xFFFFFF00000000 : Request) = packRequest 0xFF 0xFF 0xFF 0x00 0x00 0x00 0x00 := by decide
  simp only [mask, and_packRequest, byte_and_ones, byte_and_zero]

/-- The mask of `CHK`, which reads three operand bytes (20_memory.md R43). -/
theorem and_mask_three (r : Request) :
    r &&& 0xFFFFFFFF000000 = packRequest (reqOp r) (reqB0 r) (reqB1 r) (reqB2 r) 0x00 0x00 0x00 := by
  have mask : (0xFFFFFFFF000000 : Request) = packRequest 0xFF 0xFF 0xFF 0xFF 0x00 0x00 0x00 := by decide
  simp only [mask, and_packRequest, byte_and_ones, byte_and_zero]

/-- The mask of the operations that read all six operand bytes (20_memory.md R43). -/
theorem and_mask_six (r : Request) :
    r &&& 0xFFFFFFFFFFFFFF = packRequest (reqOp r) (reqB0 r) (reqB1 r) (reqB2 r) (reqB3 r) (reqB4 r) (reqB5 r) := by
  rw [packRequest_fields]
  exact BitVec.and_allOnes

/-- Settles O2: opcode by opcode; masking a word leaves the packed word that the encoder writes. -/
theorem encodeOfDecode : Obligations.EncodeOfDecode := by
  intro r
  rcases op_cases (reqOp r) with hop | hop | hop | hop | hop | hop | hop
  · simp only [decode_crc8 r hop, encode, Machine.readMask, and_mask_two, hop]
  · simp only [decode_chk r hop, encode, Machine.readMask, and_mask_three, hop]
  · simp only [decode_dect r hop, encode, Machine.readMask, and_mask_two, hop]
  · simp only [decode_decrh r hop, encode, Machine.readMask, and_mask_two, hop]
  · simp only [decode_meas r hop, encode, Machine.readMask, and_mask_six, hop]
  · simp only [decode_ser r hop, encode, Machine.readMask, and_mask_six, hop]
  · rw [decode_illegal r hop]
    exact ⟨rfl, hop⟩

/-- Settles O6: each word is the packed word of its bytes. -/
theorem specExampleWordsDecode : Obligations.SpecExampleWordsDecode :=
  ⟨decode_pack_crc8 0xBE 0xEF 0 0 0 0, decode_pack_chk 0x64 0x2C 0xAC 0 0 0, decode_pack_dect 0x64 0x2C 0 0 0 0,
    decode_pack_decrh 0x5B 0xD8 0 0 0 0, decode_pack_meas 0x64 0x2C 0xAC 0x5B 0xD8 0xC1,
    decode_pack_ser 0x12 0x34 0x37 0xAB 0xCD 0x6F⟩

end Sys2Proof

/-! ## Requests and steps (43_other_classes.md, 60_exceptions.md, 70_reset_and_hazards.md) -/

namespace Sys2Proof.Machine

/-! ### Frames of two fields against their parts -/

/-- Settles O17: with both checksums computed the frame is valid, and the registers get the decoders' values. -/
theorem measComposesDecoders : Obligations.MeasComposesDecoders := by
  intro b0 b1 b3 b4 s s1 s2
  refine ⟨_, _, _, exec_meas_eq .., exec_dect_eq .., exec_decrh_eq .., ?_⟩
  simp

/-- Settles O18: both frames and both checks compare the same computed checksums with the same bytes. -/
theorem chkAgreesWithFrames : Obligations.ChkAgreesWithFrames := by
  intro b0 b1 b2 b3 b4 b5 s s1 s2
  refine ⟨_, _, _, _, exec_meas_eq .., exec_ser_eq .., exec_chk_eq .., exec_chk_eq .., ?_⟩
  simp only [decide_eq_true_iff]
  split_ifs with bad1 bad2
  · simp [bad1]
  · simp [bad2]
  · simp [not_ne_iff.mp bad1, not_ne_iff.mp bad2]

/-! ### What a request writes -/

/-- The effect `f` writes constants: `ERR`, `WHICH` and `ILL` always, every other field one constant or nothing. -/
def WritesConstants (f : State → State) : Prop :=
  ∃ (e : Bool) (w : BitVec 2) (i : Bool) (m : Option Bool) (c : Option (Option Byte)) (t h n : Option (Option Word32)),
    ∀ s : State, f s =
      { err := e, which := w, ill := i, matchBit := m.getD s.matchBit, crc := c.getD s.crc, t := t.getD s.t,
        rh := h.getD s.rh, sn := n.getD s.sn, hostMoves := s.hostMoves }

theorem raise_writesConstants (e : OpError) : WritesConstants (·.raise e) :=
  match e with
  | .checksum .serialHalf1 => ⟨true, 0, false, none, none, none, none, some none, raise_serialHalf1⟩
  | .checksum .serialHalf2 => ⟨true, 1, false, none, none, none, none, some none, raise_serialHalf2⟩
  | .checksum .temperature => ⟨true, 2, false, none, none, some none, some none, none, raise_temperature⟩
  | .checksum .humidity => ⟨true, 3, false, none, none, some none, some none, none, raise_humidity⟩
  | .illegalOperation => ⟨false, 0, true, none, none, none, none, none, raise_illegal⟩

/-- Settles O50: the error of the request word, and where there is none its opcode, select the constants. -/
theorem requestsReadNoState : Obligations.RequestsReadNoState := by
  intro r
  rcases he : refError r with _ | e
  · rcases op_cases (reqOp r) with hop | hop | hop | hop | hop | hop | hop
    · exact ⟨false, 0, false, none, some (some _), none, none, none, afterRequest_crc8 hop⟩
    · exact ⟨false, 0, false, some _, none, none, none, none, afterRequest_chk hop⟩
    · exact ⟨false, 0, false, none, none, some (some _), none, none, afterRequest_dect hop⟩
    · exact ⟨false, 0, false, none, none, none, some (some _), none, afterRequest_decrh hop⟩
    · exact ⟨false, 0, false, none, none, some (some _), some (some _), none, afterRequest_meas hop he⟩
    · exact ⟨false, 0, false, none, none, none, none, some (some _), afterRequest_ser hop he⟩
    · simp [refError_illegal hop] at he
  · simp only [afterRequest_error he]
    exact raise_writesConstants e

/-- No outcome sets `ERR` and `ILL` together (10_state.md R31). -/
theorem outcomeFlags_exclusive (o : Option OpError) : ¬ ((outcomeFlags o).1 = true ∧ (outcomeFlags o).2.2 = true) := by
  rcases o with _ | _ | _ <;> simp [outcomeFlags]

/-- Settles O51: no request leaves `ERR` and `ILL` both set, so each changes a state with both. -/
theorem noRequestIsNop : Obligations.NoRequestIsNop := by
  intro r
  refine ⟨State.reset.setOutcome true 0 true, fun unchanged => outcomeFlags_exclusive (refError r) ⟨?_, ?_⟩⟩
  · rw [← afterRequest_err, unchanged, State.setOutcome_err]
  · rw [← afterRequest_ill, unchanged, State.setOutcome_ill]

/-! ### The whole step in one place -/

/-- A raw value as its two bytes at their weights (20_memory.md R42). -/
theorem ofNat_eq_be16 (hi lo : Byte) : BitVec.ofNat 16 (hi.toNat * 256 + lo.toNat) = be16 hi lo := by
  rw [← be16_toNat, BitVec.ofNat_toNat, BitVec.setWidth_eq]

/-- The fields as the collected step of R126 takes them, by shifts. -/
theorem shifted_fields (r : Request) :
    (r >>> 48).setWidth 8 = reqOp r ∧ (r >>> 40).setWidth 8 = reqB0 r ∧ (r >>> 32).setWidth 8 = reqB1 r ∧
    (r >>> 24).setWidth 8 = reqB2 r ∧ (r >>> 16).setWidth 8 = reqB3 r ∧ (r >>> 8).setWidth 8 = reqB4 r ∧
    r.setWidth 8 = reqB5 r := by
  simp only [BitVec.setWidth_ushiftRight_eq_extractLsb]
  exact ⟨rfl, rfl, rfl, rfl, rfl, rfl, rfl⟩

/-- The collected step of R126, opcode by opcode, is what the block does with the request. -/
theorem acceptRequest_eq_refStep (r : Request) (s : State) : acceptRequest r s = .next (refStep s r) := by
  obtain ⟨op, f0, f1, f2, f3, f4, f5⟩ := shifted_fields r
  rcases op_cases (reqOp r) with hop | hop | hop | hop | hop | hop | hop
  · rw [acceptRequest_legal (decode_crc8 r hop), exec_crc8_eq]
    simp [refStep, op, hop, f0, f1]
  · rw [acceptRequest_legal (decode_chk r hop), exec_chk_eq]
    simp [refStep, op, hop, f0, f1, f2, beq_eq_decide]
  · rw [acceptRequest_legal (decode_dect r hop), exec_dect_eq]
    simp [refStep, op, hop, f0, f1, ofNat_eq_be16]
  · rw [acceptRequest_legal (decode_decrh r hop), exec_decrh_eq]
    simp [refStep, op, hop, f0, f1, ofNat_eq_be16]
  · rw [acceptRequest_legal (decode_meas r hop), exec_meas_eq]
    simp [refStep, op, hop, f0, f1, f2, f3, f4, f5, ofNat_eq_be16]
  · rw [acceptRequest_legal (decode_ser r hop), exec_ser_eq]
    simp [refStep, op, hop, f0, f1, f2, f3, f4, f5, serialWord_eq_shifts]
  · rw [acceptRequest_illegal hop, raise_illegal]
    simp only [legalOps, List.mem_cons, List.not_mem_nil, or_false, not_or] at hop
    simp only [refStep, op, hop, if_false]

/-- Appending moves the left part up by the width of the right one. -/
theorem toNat_append_eq_add {m n : Nat} (x : BitVec m) (y : BitVec n) :
    (x ++ y).toNat = x.toNat * 2 ^ n + y.toNat := by
  rw [BitVec.toNat_append, ← Nat.shiftLeft_add_eq_or_of_lt y.isLt, Nat.shiftLeft_eq]

theorem toNat_ofBool_eq_bitNat (b : Bool) : (BitVec.ofBool b).toNat = bitNat b := by
  cases b <;> rfl

/-- STATUS as a number: each field at its weight (43_other_classes.md R126). -/
theorem statusWord_toNat (s : State) : s.statusWord.toNat = refStatus s := by
  unfold State.statusWord
  -- The outer append by itself: `simp` does not see the width 16 as a sum.
  refine (toNat_append_eq_add _ _).trans ?_
  simp only [toNat_append_eq_add, toNat_ofBool_eq_bitNat, State.valid, refStatus, BitVec.toNat_zero]
  ring

/-- Settles O52: both readings, opcode by opcode, and STATUS field by field. -/
theorem agreesWithWholeStep : Obligations.AgreesWithWholeStep :=
  fun s r => ⟨acceptRequest_eq_refStep r s, statusWord_toNat s⟩

/-! ### Steps -/

theorem step_of_present {s : State} {r : Request} {later : List HostMove} (head : s.hostMoves = .present r :: later) :
    step s = acceptRequest r (s.setMoves later) := by
  simp only [step, advance, head, takeMove]

theorem step_of_no_move {s : State} (idle : s.hostMoves = []) : step s = .next s := by
  simp only [step, advance, idle]

/-- Settles O46: the step takes the move off and hands the request to `acceptRequest`. -/
theorem stepRunsDecoded : Obligations.StepRunsDecoded := by
  refine ⟨fun s r i later head decodes => ?_, fun s r later head illegal => ?_, fun s => step_of_no_move⟩
  · rw [step_of_present head, acceptRequest_legal decodes]
    rfl
  · rw [step_of_present head, acceptRequest_illegal illegal, raise_illegal]
    rfl

/-- Settles O48: only the last of the things a step can do is a fault, and there the host uses an empty register. -/
theorem stepFaultsExactlyOnEmptyRead : Obligations.StepFaultsExactlyOnEmptyRead := by
  intro s
  rcases advance_cases s with ⟨head, he⟩ | ⟨r, later, head, he⟩ | ⟨later, head, he⟩ | ⟨later, head, he⟩ |
    ⟨reg, later, head, holds, he⟩ | ⟨reg, later, head, empty, he⟩
  · simp [step, he, State.hostKeepsContract, head]
  · simp [step, he, State.hostKeepsContract, head]
  · simp [step, he, State.hostKeepsContract, head]
  · simp [step, he, State.hostKeepsContract, head]
  · simp [step, he, State.hostKeepsContract, head, holds, State.setMoves]
  · simp [step, he, State.hostKeepsContract, head, empty, @eq_comm _ (Fault.readOfNoValue reg)]

/-- `CRC` is written by `CRC8`, with a value, and by nothing else. -/
theorem afterRequest_crc_ne_none {s : State} (holds : s.crc ≠ none) (r : Request) : (afterRequest r s).crc ≠ none := by
  by_cases isCrc8 : reqOp r = 0x01
  · simp [afterRequest_crc8_crc isCrc8]
  · rwa [(afterRequest_keepsUnwritten r s).crc isCrc8]

/-- Of the requests only a `CHK` of an invalid field clears `MATCH`. -/
theorem chk_of_cleared_matchBit {r : Request} {s : State} (before : s.matchBit = true)
    (after : (afterRequest r s).matchBit = false) : reqOp r = 0x02 ∧ crc8 (reqB0 r) (reqB1 r) ≠ reqB2 r := by
  by_cases isChk : reqOp r = 0x02
  · rw [afterRequest_chk_matchBit isChk, fieldOk_eq_decide, decide_eq_false_iff_not] at after
    exact ⟨isChk, after⟩
  · rw [(afterRequest_keepsUnwritten r s).matchBit isChk, before] at after
    cases after

/-- Settles O54: by what a step can do; a read changes neither, and a request `CRC` and `MATCH` in the way just said. -/
theorem onlyResetInvalidatesCrc : Obligations.OnlyResetInvalidatesCrc := by
  intro s u stepped
  rcases advance_cases s with ⟨_, he⟩ | ⟨r, later, head, he⟩ | ⟨later, head, he⟩ | ⟨later, _, he⟩ | ⟨_, later, _, _, he⟩ |
    ⟨_, later, _, _, he⟩ <;> cases he.symm.trans stepped
  · simp_all
  · refine ⟨fun holds gone => absurd gone (afterRequest_crc_ne_none (s := s.setMoves later) holds r),
      fun before after => .inr ⟨r, later, head, ?_⟩⟩
    exact chk_of_cleared_matchBit (s := s.setMoves later) before after
  · exact ⟨fun _ _ => ⟨later, head⟩, fun _ _ => .inl ⟨later, head⟩⟩
  · simp_all
  · simp_all

/-! ### Runs -/

/-- A request neither reads nor writes the host's moves. -/
theorem afterRequest_setMoves (r : Request) (s : State) (l : List HostMove) :
    afterRequest r (s.setMoves l) = (afterRequest r s).setMoves l := by
  obtain ⟨e, w, i, m, c, t, h, n, constants⟩ := requestsReadNoState r
  rw [constants, constants]
  rfl

theorem afterRequests_cons (r : Request) (rs : List Request) (s : State) :
    afterRequests (r :: rs) s = afterRequests rs (afterRequest r s) := rfl

/-- One request presented is one step of the run. -/
theorem run_present (n : Nat) (r : Request) (later : List HostMove) (s : State) :
    core.run (n + 1) (s.setMoves (.present r :: later)) = core.run n ((afterRequest r s).setMoves later) := by
  have stepped : core.step (s.setMoves (.present r :: later)) = .next ((afterRequest r s).setMoves later) := by
    rw [← afterRequest_setMoves]
    exact (acceptRequest_eq r (s.setMoves later)).1
  simp only [Host.Core.run, stepped]

/-- Settles O53: by induction on the requests, one step for each. -/
theorem runIsFoldOfRequests : Obligations.RunIsFoldOfRequests := by
  intro rs
  induction rs with
  | nil => exact fun s => rfl
  | cons r rs ih =>
    intro s
    rw [afterRequests_cons, ← ih]
    exact run_present rs.length r (rs.map .present) s

end Sys2Proof.Machine

/-! ## The ports (30_encoding.md section 1, 70_reset_and_hazards.md section 4) -/

namespace Sys2Proof.Machine

/-! ### What the ports show -/

theorem shown_of_idle {b : Block} (idle : b.inFlight = none) : b.shown = b.core := by
  simp only [Block.shown, idle]

/-- A busy block shows the old state or the whole state after its request. -/
theorem shown_of_busy {b : Block} {p : InFlight} (busy : b.inFlight = some p) :
    b.shown = b.core ∨ b.shown = afterRequest p.req b.core := by
  rcases shown_cases b with old | ⟨q, inFlight, new⟩
  · exact .inl old
  · obtain rfl : p = q := Option.some.inj (busy.symm.trans inFlight)
    exact .inr new

/-- Settles O55: the ports are read off the one state shown; `req_ready` says whether a request is in flight. -/
theorem portsShowRegisters : Obligations.PortsShowRegisters := by
  intro b
  refine ⟨fun idle => ⟨shown_of_idle idle, by simp [Block.outputs, Block.ready, idle]⟩,
    fun p busy => ⟨shown_of_busy busy, by simp [Block.outputs, Block.ready, busy]⟩, rfl, rfl, ?_, ?_, ?_, ?_⟩
  all_goals
    intro v holds
    simp [Block.outputs, holds]

/-! ### The handshake -/

/-- Some edges on, only the count of the cycles has moved. -/
def Block.afterEdges (b : Block) (n : Nat) : Block := { b with cycles := b.cycles + n }

/-- An edge without `rst` takes one off the edges a request has to go. -/
theorem cycle_countdown (latency : Nat) {j : Inputs} (noRst : j.rst = false) (b : Block) (r : Request) {n : Nat}
    (left : n ≠ 0) : (b.countdown r n).cycle latency j = (b.afterEdges 1).countdown r (n - 1) := by
  rw [countdown_pos b r left, Block.cycle, noRst]
  rfl

/-- While a request has edges to go the inputs but `rst` do not matter, and each edge takes one off. -/
theorem cyclesWith_countdown (latency : Nat) (r : Request) (js : List Inputs) (b : Block) (n : Nat)
    (noRst : ∀ j ∈ js, j.rst = false) (inTime : js.length ≤ n) :
    (b.countdown r n).cyclesWith latency js = (b.afterEdges js.length).countdown r (n - js.length) := by
  induction js generalizing b n with
  | nil => rfl
  | cons j js ih =>
    simp only [List.mem_cons, forall_eq_or_imp, List.length_cons] at noRst inTime ⊢
    rw [cyclesWith_cons, cycle_countdown latency noRst.1 b r (by omega), ih _ _ noRst.2 (by omega)]
    simp only [Block.afterEdges, Nat.add_assoc, Nat.sub_sub, Nat.add_comm 1]

/-- The edge that accepts a request starts its countdown (30_encoding.md R50). -/
theorem cycle_of_accepts {b : Block} {i : Inputs} (accepts : b.accepts i = true) (latency : Nat) :
    b.cycle latency i = b.countdown i.req (latency - 1) := by
  have ⟨⟨_, ready⟩, noRst⟩ : (i.reqValid = true ∧ b.inFlight = none) ∧ i.rst = false := by
    simpa [Block.accepts, Block.ready] using accepts
  simp [Block.cycle, noRst, ready, accepts]

/-- The block some edges after it accepted a request. -/
theorem cyclesWith_of_accepts {latency : Nat} {b : Block} {i : Inputs} {js : List Inputs} (accepts : b.accepts i = true)
    (noRst : ∀ j ∈ js, j.rst = false) (inTime : js.length ≤ latency - 1) :
    b.cyclesWith latency (i :: js) = (b.afterEdges js.length).countdown i.req (latency - 1 - js.length) := by
  rw [cyclesWith_cons, cycle_of_accepts accepts, cyclesWith_countdown latency i.req js b _ noRst inTime]

/-- An edge without `rst` and without a request leaves an idle block as it is, with `resp_valid` 0. -/
theorem cycle_of_idle {b : Block} {k : Inputs} (idle : b.inFlight = none) (noRst : k.rst = false)
    (noRequest : k.reqValid = false) (latency : Nat) :
    b.cycle latency k = { b with respValid := false, cycles := b.cycles + 1 } := by
  simp [Block.cycle, Block.accepts, idle, noRst, noRequest]

/-- Settles O56: acceptance starts a countdown of `latency - 1` further edges; above 0 the block is busy, at 0 it completes. -/
theorem resultsAfterLatency : Obligations.ResultsAfterLatency := by
  intro latency b i js positive accepts noRst
  refine ⟨fun early => ?_, fun due => ?_⟩
  · rw [cyclesWith_of_accepts accepts noRst (by omega), countdown_pos _ _ (by omega)]
    exact ⟨rfl, rfl, rfl⟩
  · have spent : latency - 1 - js.length = 0 := by omega
    rw [cyclesWith_of_accepts accepts noRst (by omega), spent, countdown_zero]
    refine ⟨rfl, rfl, rfl, fun k kNoRst noRequest => ?_⟩
    rw [cycle_of_idle (b := (b.afterEdges js.length).complete i.req) rfl kNoRst noRequest]
    exact ⟨rfl, rfl⟩

end Sys2Proof.Machine

/-! ## The checksum as a linear code (40_checksum.md) -/

namespace Sys2Proof.Machine

/-! ### Linearity -/

/-- One shift: the byte moved up, and the polynomial if bit 7 was 1. -/
theorem crcShift_eq (c : Byte) : crcShift c = (c <<< 1) ^^^ (if c.getLsbD 7 then Config.poly else 0) := by
  unfold crcShift
  split_ifs <;> simp

/-- The polynomial counts once if exactly one of two bits is 1, and cancels if both are. -/
theorem ite_xor_poly (x y : Bool) :
    (if (x ^^ y) then Config.poly else 0) = (if x then Config.poly else 0) ^^^ (if y then Config.poly else 0) := by
  revert x y; decide

theorem crcShift_xor (a b : Byte) : crcShift (a ^^^ b) = crcShift a ^^^ crcShift b := by
  simp only [crcShift_eq, BitVec.getLsbD_xor, ite_xor_poly, BitVec.shiftLeft_xor_distrib]
  ac_rfl

theorem crcShifts_xor (n : Nat) (a b : Byte) : crcShifts n (a ^^^ b) = crcShifts n a ^^^ crcShifts n b := by
  induction n generalizing a b with
  | zero => rfl
  | succ n ih => simp only [crcShifts, crcShift_xor, ih]

theorem crcStep_xor_xor (a b c d : Byte) : crcStep (a ^^^ c) (b ^^^ d) = crcStep a b ^^^ crcStep c d := by
  simp only [crcStep, crcShifts_xor]
  ac_rfl

theorem crcStep_zero_xor (a b : Byte) : crcStep 0 (a ^^^ b) = crcStep 0 a ^^^ crcStep 0 b :=
  crcStep_xor_xor 0 a 0 b

/-- A change of the payload changes the checksum by its `syn`, whatever the payload (40_checksum.md R72). -/
theorem crc8_xor (d0 d1 e0 e1 : Byte) : crc8 (d0 ^^^ e0) (d1 ^^^ e1) = crc8 d0 d1 ^^^ syn e0 e1 := by
  have start : crcStep Config.init (d0 ^^^ e0) = crcStep Config.init d0 ^^^ crcStep 0 e0 :=
    crcStep_xor_xor Config.init d0 0 e0
  rw [crc8, start, crcStep_xor_xor, ← crc8, ← syn]

theorem syn_xor (e0 e1 f0 f1 : Byte) : syn (e0 ^^^ f0) (e1 ^^^ f1) = syn e0 e1 ^^^ syn f0 f1 := by
  rw [syn, crcStep_zero_xor, crcStep_xor_xor, ← syn, ← syn]

theorem syn_zero : syn 0 0 = 0 := by decide +kernel

/-! ### The table -/

/-- Each of the 256 printed entries is its byte step (40_checksum.md R72). -/
theorem crcTable_eq : ∀ b : Byte, crcTable b = crcStep 0x00 b := by decide +kernel

theorem crcStep_eq_crcTable (c b : Byte) : crcStep c b = crcTable (c ^^^ b) := by
  rw [crcTable_eq, ← crcStep_xor]

/-- Settles O27: the printed entries are compared one by one; every byte step is one from zero. -/
theorem checksumByTable : Obligations.ChecksumByTable := by
  refine ⟨crcTable_eq, crcStep_eq_crcTable, fun d0 d1 => ?_⟩
  rw [crc8, crcStep_eq_crcTable, crcStep_eq_crcTable]
  rfl

/-- Settles O28: the byte step is linear in both arguments, so only `INIT` keeps the checksum from being so. -/
theorem checksumIsAffine : Obligations.ChecksumIsAffine := by
  refine ⟨crc8_xor, syn_xor, syn_zero, fun e0 e1 => ?_⟩
  rw [syn, crcStep_eq_crcTable, ← crcTable_eq]

/-! ### One to one -/

theorem crcStep_zero_eq_zero : ∀ b : Byte, crcStep 0 b = 0 → b = 0 := by decide +kernel

/-- The byte step permutes the bytes: it is linear, and nothing but 0 goes to 0. -/
theorem crcStep_zero_bijective : Function.Bijective (crcStep 0) := by
  have injective : Function.Injective (crcStep 0) := by
    intro a b same
    refine BitVec.xor_eq_zero_iff.mp (crcStep_zero_eq_zero _ ?_)
    rw [crcStep_zero_xor, same]
    exact BitVec.xor_self
  exact ⟨injective, Finite.surjective_of_injective injective⟩

/-- Xor with a fixed byte permutes the bytes, being its own inverse. -/
theorem xor_bijective (a : Byte) : Function.Bijective (fun b => a ^^^ b) :=
  Function.Involutive.bijective fun b => by rw [← BitVec.xor_assoc, BitVec.xor_self, BitVec.zero_xor]

theorem crcStep_bijective_right (c : Byte) : Function.Bijective (fun b => crcStep c b) := by
  simp only [crcStep_xor c]
  exact crcStep_zero_bijective.comp (xor_bijective c)

theorem crcStep_bijective_left (b : Byte) : Function.Bijective (fun c => crcStep c b) := by
  simp only [fun c => crcStep_xor c b, BitVec.xor_comm _ b]
  exact crcStep_zero_bijective.comp (xor_bijective b)

/-- Settles O29: either byte of the payload, the other fixed, enters by a chain of permutations. -/
theorem checksumIsBalanced : Obligations.ChecksumIsBalanced := by
  refine ⟨fun d0 => ?_, fun d1 => ?_, by decide +kernel⟩
  · exact (crcStep_bijective_right (crcStep Config.init d0)).existsUnique
  · exact ((crcStep_bijective_left d1).comp (crcStep_bijective_right Config.init)).existsUnique

end Sys2Proof.Machine

/-! ### The parameter list, one bit at a time -/

namespace Sys2Proof.Machine

/-- The byte still to enter may stand beside the register: its top bit enters as the message bit, the rest moves up. -/
theorem crcShift_xor_message (c d : Byte) :
    crcShift (c ^^^ d) = serialBit Config.poly c (d.getLsbD 7) ^^^ (d <<< 1) := by
  have serial : serialBit Config.poly c (d.getLsbD 7) =
      (c <<< 1) ^^^ (if c.getLsbD 7 ^^ d.getLsbD 7 then Config.poly else 0) := by
    unfold serialBit
    cases c.getLsbD 7 <;> cases d.getLsbD 7 <;> simp
  rw [serial, crcShift_eq, BitVec.getLsbD_xor, BitVec.shiftLeft_xor_distrib]
  ac_rfl

/-- The first `n` bits of a byte, most significant first. -/
def topBits (n : Nat) (d : Byte) : List Bool := (List.range n).map (fun k => d.getLsbD (7 - k))

theorem topBits_succ {n : Nat} (d : Byte) (h : n ≤ 7) : topBits (n + 1) d = d.getLsbD 7 :: topBits n (d <<< 1) := by
  rw [topBits, List.range_succ_eq_map, List.map_cons, List.map_map, topBits]
  refine congrArg _ (List.map_congr_left fun k inRange => ?_)
  have below : k < n := List.mem_range.mp inRange
  simp only [Function.comp_apply, BitVec.getLsbD_shiftLeft]
  have moved : 7 - k - 1 = 7 - (k + 1) := by omega
  have inByte : 7 - k < 8 := by omega
  have above : ¬ 7 - k < 1 := by omega
  simp [moved, inByte, above]

/-- Entering `n` bits one at a time is entering the byte at once and shifting `n` times, but for the bits yet to come. -/
theorem crcShifts_xor_message (n : Nat) (h : n ≤ 8) (c d : Byte) :
    crcShifts n (c ^^^ d) = (topBits n d).foldl (serialBit Config.poly) c ^^^ (d <<< n) := by
  induction n generalizing c d with
  | zero => simp [crcShifts, topBits]
  | succ n ih =>
    rw [crcShifts, crcShift_xor_message, ih (by omega), topBits_succ d (by omega), List.foldl_cons, ← BitVec.shiftLeft_add,
      Nat.add_comm 1 n]

/-- A byte step is its eight message bits, most significant first. -/
theorem foldl_serialBit_byte (c d : Byte) : (topBits 8 d).foldl (serialBit Config.poly) c = crcStep c d := by
  rw [crcStep, crcShifts_xor_message 8 le_rfl, BitVec.shiftLeft_eq_zero (by decide)]
  exact BitVec.xor_zero.symm

/-- Settles O30: without reflection the message is the top bits of each byte, and each byte is one byte step. -/
theorem checksumFromParameters : Obligations.ChecksumFromParameters := by
  refine ⟨fun d0 d1 => ?_, rfl, rfl, rfl, rfl, rfl⟩
  have message : [d0, d1].flatMap (inputBits Config.refIn) = topBits 8 d0 ++ topBits 8 d1 := by
    simp [inputBits, Config.refIn, topBits]
  simp only [paramChecksum, message, List.foldl_append, foldl_serialBit_byte]
  exact BitVec.xor_zero

/-! ### The remainder of polynomials -/

/-- The polynomial with the register's bits from degree `n` up. -/
def registerAt (n : Nat) (c : Byte) : BitVec 24 := c.setWidth 24 <<< n

/-- One cancellation by `0x131` is one shift of the register. -/
theorem registerAt_crcShift (n : Nat) (c : Byte) :
    registerAt n (crcShift c) = registerAt (n + 1) c ^^^ (if c.getLsbD 7 then (0x131 : BitVec 24) <<< n else 0) := by
  have bottom : ∀ c : Byte,
      (crcShift c).setWidth 24 = c.setWidth 24 <<< 1 ^^^ (if c.getLsbD 7 then (0x131 : BitVec 24) else 0) := by
    decide +kernel
  rw [registerAt, bottom, BitVec.shiftLeft_xor_distrib, ← BitVec.shiftLeft_add, Nat.add_comm 1 n, registerAt]
  split_ifs <;> simp

theorem registerAt_getLsbD_top {n : Nat} (h : n ≤ 15) (c : Byte) : (registerAt (n + 1) c).getLsbD (n + 8) = c.getLsbD 7 := by
  have inPoly : n + 8 < 24 := by omega
  have top : n + 8 - (n + 1) = 7 := by omega
  simp [registerAt, inPoly, top]

/-- `k` steps of the long division shift the register `k` times, as long as the bits below do not reach it. -/
theorem polyRem_registerAt (k n : Nat) (h : n + k ≤ 16) (c : Byte) (low : BitVec 24)
    (below : ∀ i, n + 8 ≤ i → low.getLsbD i = false) :
    polyRem (n + k) (registerAt (n + k) c ^^^ low) = polyRem n (registerAt n (crcShifts k c) ^^^ low) := by
  induction k generalizing c with
  | zero => rfl
  | succ k ih =>
    have top : (registerAt (n + k + 1) c ^^^ low).getLsbD (n + k + 8) = c.getLsbD 7 := by
      rw [BitVec.getLsbD_xor, registerAt_getLsbD_top (by omega), below _ (by omega), Bool.xor_false]
    rw [← Nat.add_assoc, polyRem, top, crcShifts, ← ih (by omega), registerAt_crcShift]
    split_ifs
    · ac_rfl
    · simp

theorem registerAt_zero (c : Byte) : registerAt 0 c = c.setWidth 24 := BitVec.shiftLeft_zero _

theorem registerAt_xor (n : Nat) (a b : Byte) : registerAt n (a ^^^ b) = registerAt n a ^^^ registerAt n b := by
  simp only [registerAt, BitVec.setWidth_xor, BitVec.shiftLeft_xor_distrib]

theorem registerAt_getLsbD_above {n i : Nat} (h : n + 8 ≤ i) (c : Byte) : (registerAt n c).getLsbD i = false := by
  simp [registerAt, BitVec.getLsbD_of_ge c (i - n) (by omega)]

theorem payloadPoly_eq (d0 d1 : Byte) : payloadPoly d0 d1 = registerAt 16 (d0 ^^^ 0xFF) ^^^ registerAt 8 d1 := by
  unfold payloadPoly registerAt
  generalize d0 ^^^ 0xFF = a
  refine BitVec.eq_of_getLsbD_eq fun i hi => ?_
  rw [BitVec.getLsbD_append, BitVec.getLsbD_append, BitVec.getLsbD_xor]
  by_cases inLast : i < 8
  · have notInFirst : i < 16 := by omega
    simp [inLast, notInFirst]
  · by_cases inSecond : i < 16
    · have offset : i - 8 < 8 := by omega
      simp [hi, inLast, inSecond, offset]
    · have offset : ¬ i - 8 < 8 := by omega
      simp [hi, inLast, inSecond, offset, Nat.sub_sub, BitVec.getLsbD_of_ge d1 (i - 8) (by omega)]

/-- Settles O31: eight steps divide the first byte through, the second byte joins the register, and eight more divide that. -/
theorem checksumIsPolynomialRemainder : Obligations.ChecksumIsPolynomialRemainder := by
  intro d0 d1
  calc polyRem 16 (payloadPoly d0 d1)
    _ = polyRem (8 + 8) (registerAt (8 + 8) (d0 ^^^ 0xFF) ^^^ registerAt 8 d1) := by rw [payloadPoly_eq]
    _ = polyRem 8 (registerAt 8 (crcShifts 8 (d0 ^^^ 0xFF)) ^^^ registerAt 8 d1) :=
      polyRem_registerAt 8 8 (by decide) _ _ fun _ above => registerAt_getLsbD_above above d1
    _ = polyRem (0 + 8) (registerAt (0 + 8) (crcShifts 8 (d0 ^^^ 0xFF) ^^^ d1) ^^^ 0) := by
      rw [← registerAt_xor]
      exact congrArg (polyRem 8) BitVec.xor_zero.symm
    _ = registerAt 0 (crcShifts 8 (crcShifts 8 (d0 ^^^ 0xFF) ^^^ d1)) ^^^ 0 :=
      polyRem_registerAt 8 0 (by decide) _ _ fun _ _ => BitVec.getLsbD_zero
    _ = (crc8 d0 d1).setWidth 24 := by
      rw [BitVec.xor_comm d0]
      exact BitVec.xor_zero.trans (registerAt_zero (crc8 d0 d1))

/-! ### Undetected changes -/

/-- A valid field changed by `e0 e1 e` is valid exactly when `e` is the change of its checksum. -/
theorem fieldOk_change_iff (d0 d1 e0 e1 e : Byte) :
    fieldOk (d0 ^^^ e0) (d1 ^^^ e1) (crc8 d0 d1 ^^^ e) = true ↔ e = syn e0 e1 := by
  rw [fieldOk_iff, crc8_xor, BitVec.xor_right_inj, eq_comm]

/-- Settles O32: a stale checksum byte is a change of it by 0. -/
theorem undetectedChanges : Obligations.UndetectedChanges := by
  intro d0 d1 e0 e1 e
  refine ⟨fieldOk_change_iff d0 d1 e0 e1 e, ?_, by decide +kernel⟩
  have stale := fieldOk_change_iff d0 d1 e0 e1 0
  rwa [show crc8 d0 d1 ^^^ 0 = crc8 d0 d1 from BitVec.xor_zero, eq_comm (a := (0 : Byte))] at stale

/-! ### Small changes of a field -/

/-- What a change of a field is off by: the change its payload part makes in the checksum against its checksum part. -/
def fieldSyndrome (e : BitVec 24) : Byte := syn (e.extractLsb' 16 8) (e.extractLsb' 8 8) ^^^ e.extractLsb' 0 8

theorem fieldSyndrome_xor (e f : BitVec 24) : fieldSyndrome (e ^^^ f) = fieldSyndrome e ^^^ fieldSyndrome f := by
  simp only [fieldSyndrome, BitVec.extractLsb'_xor, syn_xor]
  ac_rfl

/-- A change of a valid field goes undetected exactly when its syndrome is 0 (40_checksum.md section 3). -/
theorem fieldWordOk_xor_iff {w : BitVec 24} (valid : fieldWordOk w = true) (e : BitVec 24) :
    fieldWordOk (w ^^^ e) = true ↔ fieldSyndrome e = 0 := by
  rw [fieldWordOk, fieldOk_iff] at valid
  rw [fieldWordOk, BitVec.extractLsb'_xor, BitVec.extractLsb'_xor, BitVec.extractLsb'_xor, ← valid, fieldOk_change_iff,
    fieldSyndrome, eq_comm]
  exact BitVec.xor_eq_zero_iff.symm

/-- The bits a pattern flips. -/
def flipped (e : BitVec 24) : List Nat := (List.range 24).filter (fun k => e.getLsbD k)

theorem flips_eq_length (e : BitVec 24) : flips e = (flipped e).length := List.countP_eq_length_filter

/-- The pattern that flips the bits of a list. -/
def patternOf (ks : List Nat) : BitVec 24 := ks.foldr (fun k e => BitVec.twoPow 24 k ^^^ e) 0

theorem patternOf_getLsbD {ks : List Nat} (distinct : ks.Nodup) (inField : ∀ k ∈ ks, k < 24) (i : Nat) :
    (patternOf ks).getLsbD i = decide (i ∈ ks) := by
  induction ks with
  | nil => simp [patternOf]
  | cons k ks ih =>
    simp only [List.nodup_cons, List.mem_cons, forall_eq_or_imp] at distinct inField ⊢
    have rest := ih distinct.2 inField.2
    simp only [patternOf, List.foldr_cons, BitVec.getLsbD_xor, BitVec.getLsbD_twoPow] at rest ⊢
    rw [rest]
    by_cases here : i = k
    · simp [here, inField.1, distinct.1]
    · simp [here, Ne.symm here]

theorem flipped_nodup (e : BitVec 24) : (flipped e).Nodup := List.nodup_range.filter _

theorem flipped_lt (e : BitVec 24) : ∀ k ∈ flipped e, k < 24 :=
  fun _ isFlipped => List.mem_range.mp (List.mem_of_mem_filter isFlipped)

/-- A pattern is made of the bits it flips. -/
theorem patternOf_flipped (e : BitVec 24) : patternOf (flipped e) = e := by
  refine BitVec.eq_of_getLsbD_eq fun i hi => ?_
  rw [patternOf_getLsbD (flipped_nodup e) (flipped_lt e)]
  simp [flipped, hi]

theorem fieldSyndrome_patternOf_cons (k : Nat) (ks : List Nat) :
    fieldSyndrome (patternOf (k :: ks)) = fieldSyndrome (BitVec.twoPow 24 k) ^^^ fieldSyndrome (patternOf ks) :=
  fieldSyndrome_xor _ _

theorem fieldSyndrome_patternOf_nil : fieldSyndrome (patternOf []) = 0#8 := by decide +kernel

/-- Whether the number of ones among the bits `ks` of a byte is odd. -/
def parityOf (ks : List Nat) (b : Byte) : Bool := ks.foldr (fun k odd => b.getLsbD k ^^ odd) false

theorem parityOf_xor (ks : List Nat) (a b : Byte) : parityOf ks (a ^^^ b) = (parityOf ks a ^^ parityOf ks b) := by
  induction ks with
  | nil => rfl
  | cons k ks ih =>
    simp only [parityOf, List.foldr_cons, BitVec.getLsbD_xor] at ih ⊢
    rw [ih, Bool.xor_assoc, Bool.xor_assoc, Bool.xor_left_comm (b.getLsbD k)]

/-- Whether the number of ones of a byte is odd. -/
def parity (b : Byte) : Bool := parityOf (List.range 8) b

/-- The syndrome of one flipped bit has an odd number of ones: the full polynomial has four terms. -/
theorem parity_fieldSyndrome_twoPow : ∀ k < 24, parity (fieldSyndrome (BitVec.twoPow 24 k)) = true := by
  decide +kernel

/-- Two flipped bits have different syndromes. -/
theorem fieldSyndrome_twoPow_injective :
    ∀ i < 24, ∀ j < 24, fieldSyndrome (BitVec.twoPow 24 i) = fieldSyndrome (BitVec.twoPow 24 j) → i = j := by
  decide +kernel

/-- The syndrome keeps whether the number of flipped bits is odd. -/
theorem parity_fieldSyndrome_patternOf {ks : List Nat} (inField : ∀ k ∈ ks, k < 24) :
    parity (fieldSyndrome (patternOf ks)) = ks.length.bodd := by
  induction ks with
  | nil => rw [fieldSyndrome_patternOf_nil]; rfl
  | cons k ks ih =>
    simp only [List.mem_cons, forall_eq_or_imp] at inField
    rw [fieldSyndrome_patternOf_cons, parity, parityOf_xor, ← parity, ← parity, parity_fieldSyndrome_twoPow k inField.1,
      ih inField.2, List.length_cons, Nat.bodd_succ, Bool.true_xor]

/-- One or three flipped bits are detected by parity, two by their different syndromes. -/
theorem fieldSyndrome_ne_zero {e : BitVec 24} (any : 1 ≤ flips e) (few : flips e ≤ 3) : fieldSyndrome e ≠ 0 := by
  intro undetected
  rw [flips_eq_length] at any few
  have distinct := flipped_nodup e
  have inField := flipped_lt e
  rw [← patternOf_flipped e] at undetected
  have even : (flipped e).length.bodd = false := by
    rw [← parity_fieldSyndrome_patternOf inField, undetected]
    decide
  match hks : flipped e with
  | [] => simp [hks] at any
  | [_] => simp [hks] at even
  | [_, _, _] => simp [hks] at even
  | _ :: _ :: _ :: _ :: _ =>
    simp only [hks, List.length_cons] at few
    omega
  | [i, j] =>
    rw [hks] at undetected distinct inField
    rw [fieldSyndrome_patternOf_cons, fieldSyndrome_patternOf_cons, fieldSyndrome_patternOf_nil,
      BitVec.xor_zero] at undetected
    have same : fieldSyndrome (BitVec.twoPow 24 i) = fieldSyndrome (BitVec.twoPow 24 j) :=
      BitVec.xor_eq_zero_iff.mp undetected
    have equal : i = j := fieldSyndrome_twoPow_injective i (inField i (by simp)) j (inField j (by simp)) same
    simp [equal] at distinct

/-- Settles O33: a pattern of up to three bits has a syndrome, and a pattern of four has none. -/
theorem smallChangesDetected : Obligations.SmallChangesDetected := by
  refine ⟨fun w e valid any few => ?_, by decide +kernel, by decide +kernel, by decide +kernel⟩
  rw [← Bool.not_eq_true, fieldWordOk_xor_iff valid]
  exact fieldSyndrome_ne_zero any few

end Sys2Proof.Machine

/-! ## The decoders in binary64 (41_decode.md R95, R101) -/

namespace Sys2Proof.Machine

/-! ### The error of one rounding to binary64 -/

theorem abs_roundHalfEven_sub_le (x : Rat) : |(roundHalfEven x : Rat) - x| ≤ 1 / 2 := by
  have below := Int.floor_le x
  have above := Int.lt_floor_add_one x
  rw [abs_le]
  unfold roundHalfEven
  simp only
  split_ifs <;> push_cast <;> constructor <;> linarith

/-- A value by the binary digits of its numerator and denominator: at least `2 ^ (log2 num - log2 den - 1)`. -/
theorem two_zpow_log2_le_abs {x : Rat} (nonzero : x ≠ 0) :
    (2 : Rat) ^ ((Nat.log2 x.num.natAbs : Int) - Nat.log2 x.den - 1) ≤ |x| := by
  have num : 2 ^ Nat.log2 x.num.natAbs ≤ x.num.natAbs := Nat.log2_self_le (by simpa using nonzero)
  have den : x.den ≤ 2 ^ (Nat.log2 x.den + 1) := Nat.lt_log2_self.le
  have denPos : (0 : Rat) < x.den := by exact_mod_cast x.den_pos
  calc (2 : Rat) ^ ((Nat.log2 x.num.natAbs : Int) - Nat.log2 x.den - 1)
    _ = 2 ^ Nat.log2 x.num.natAbs / 2 ^ (Nat.log2 x.den + 1) := by
      rw [sub_sub, zpow_sub₀ (by norm_num)]
      norm_cast
    _ ≤ x.num.natAbs / x.den := by
      gcongr
      · exact_mod_cast num
      · exact_mod_cast den
    _ = |(x.num : Rat) / x.den| := by rw [abs_div, Nat.abs_cast, Nat.cast_natAbs, Int.cast_abs]
    _ = |x| := by rw [Rat.num_div_den]

/-- The unit of the last place is at most `2^-52` of the value: 53 bits of precision. -/
theorem two_zpow_ulpExp_le {x : Rat} (nonzero : x ≠ 0) : (2 : Rat) ^ ulpExp x ≤ |x| / 2 ^ 52 := by
  have lower := two_zpow_log2_le_abs nonzero
  unfold ulpExp
  simp only
  generalize (Nat.log2 x.num.natAbs : Int) - Nat.log2 x.den = k at lower
  have down : ∀ j : Int, (2 : Rat) ^ (j - 52) = 2 ^ j / 2 ^ 52 := fun j => zpow_sub₀ (by norm_num) j 52
  split_ifs with small
  · have oneMore : k - 53 = k - 1 - 52 := by ring
    rw [oneMore, down]
    gcongr
  · rw [down]
    gcongr
    exact not_lt.mp small

/-- One rounding to binary64 is off by at most `2^-53` of the value. -/
theorem abs_round64_sub_le (x : Rat) : |round64 x - x| ≤ |x| / 2 ^ 53 := by
  unfold round64
  split_ifs with zero
  · simp [zero]
  · have positive : (0 : Rat) < 2 ^ ulpExp x := by positivity
    have scaled : (roundHalfEven (x / 2 ^ ulpExp x) : Rat) * 2 ^ ulpExp x - x =
        ((roundHalfEven (x / 2 ^ ulpExp x) : Rat) - x / 2 ^ ulpExp x) * 2 ^ ulpExp x := by
      field_simp
    calc |(roundHalfEven (x / 2 ^ ulpExp x) : Rat) * 2 ^ ulpExp x - x|
      _ = |(roundHalfEven (x / 2 ^ ulpExp x) : Rat) - x / 2 ^ ulpExp x| * 2 ^ ulpExp x := by
        rw [scaled, abs_mul, abs_of_pos positive]
      _ ≤ 1 / 2 * (|x| / 2 ^ 52) := by
        have half := abs_roundHalfEven_sub_le (x / 2 ^ ulpExp x)
        have ulp := two_zpow_ulpExp_le zero
        gcongr
      _ = |x| / 2 ^ 53 := by ring

theorem abs_round64_sub_le_of_le {x b : Rat} (bound : |x| ≤ b) : |round64 x - x| ≤ b / 2 ^ 53 :=
  (abs_round64_sub_le x).trans (by gcongr)

/-! ### The error of the document's expressions -/

/-- `offset + span * n / 65535` left to right, with three roundings, against the exact value. -/
theorem abs_binary64_sub_le {offset span n : Rat} (hOffset : |offset| ≤ 49) (hProduct : |span * n| ≤ 315 * 65535) :
    |round64 (offset + round64 (round64 (span * n) / 65535)) - (offset + span * n / 65535)| ≤ 1 / 2 ^ 40 := by
  generalize span * n = product at hProduct ⊢
  have e1 := abs_round64_sub_le_of_le hProduct
  generalize round64 product = p at e1 ⊢
  rw [abs_le] at hOffset hProduct e1
  have hQuotient : |p / 65535| ≤ 316 := by
    rw [abs_le]; constructor <;> linarith
  have e2 := abs_round64_sub_le_of_le hQuotient
  generalize round64 (p / 65535) = q at e2 ⊢
  rw [abs_le] at hQuotient e2
  have hSum : |offset + q| ≤ 366 := by
    rw [abs_le]; constructor <;> linarith
  have e3 := abs_round64_sub_le_of_le hSum
  rw [abs_le] at e3 ⊢
  constructor <;> linarith

/-- A value nearer to a fraction of 65535 than any fraction is to a tie rounds to the same integer. -/
theorem floor_of_near {d : Rat} {n : Int} (near : |d - (n : Rat) / 65535| ≤ 1 / 2 ^ 40) :
    ⌊65536 * d + 1 / 2⌋ = q16 ((n : Rat) / 65535) := by
  rw [q16_div_rawDivisor, q16Num_eq, Int.floor_eq_iff]
  -- `2 * n + 65535` is odd, so its remainder by 131070 is at least 1 and at most 131069.
  have remainder : 131070 * ((2 * n + 65535) / 131070) + 1 ≤ 2 * n + 65535 ∧
      2 * n + 65535 + 1 ≤ 131070 * ((2 * n + 65535) / 131070) + 131070 := by omega
  generalize (2 * n + 65535) / 131070 = k at remainder ⊢
  have above : (131070 * k + 1 : Rat) ≤ 2 * n + 65535 := by exact_mod_cast remainder.1
  have below : (2 * n + 65535 + 1 : Rat) ≤ 131070 * k + 131070 := by exact_mod_cast remainder.2
  rw [abs_le] at near
  push_cast
  constructor <;> linarith

theorem clamp_eq_max_min (v : Rat) : clamp v 0 100 = max 0 (min v 100) := by
  unfold clamp
  split_ifs with low high
  · rw [max_eq_left ((min_le_left _ _).trans low.le)]
  · rw [min_eq_right high.le, max_eq_right (by norm_num)]
  · rw [min_eq_left (not_lt.mp high), max_eq_right (not_lt.mp low)]

/-- Clamping brings no two values further apart. -/
theorem abs_clamp_sub_le (v w : Rat) : |clamp v 0 100 - clamp w 0 100| ≤ |v - w| := by
  rw [clamp_eq_max_min, clamp_eq_max_min, max_comm, max_comm 0]
  refine (abs_max_sub_max_le_abs _ _ _).trans ((abs_min_sub_min_le_max _ _ _ _).trans ?_)
  simp

theorem abs_temp64_sub_le (raw : Raw) : |temp64 raw - tempVal raw| ≤ 1 / 2 ^ 40 := by
  have inRange : (raw.toNat : Rat) ≤ 65535 := by exact_mod_cast Nat.le_of_lt_succ raw.isLt
  rw [tempVal_eq]
  refine abs_binary64_sub_le (by norm_num) ?_
  rw [abs_of_nonneg (by positivity)]
  gcongr

theorem abs_hum64_sub_le (raw : Raw) : |hum64 raw - humVal raw| ≤ 1 / 2 ^ 40 := by
  have inRange : (raw.toNat : Rat) ≤ 65535 := by exact_mod_cast Nat.le_of_lt_succ raw.isLt
  have exactVal : humVal raw = clamp (-6 + 125 * (raw.toNat : Rat) / 65535) 0 100 := by
    rw [← humPre_eq, humVal_eq, clamp]
  rw [exactVal, hum64]
  refine (abs_clamp_sub_le _ _).trans (abs_binary64_sub_le (by norm_num) ?_)
  rw [abs_of_nonneg (by positivity)]
  gcongr
  norm_num

/-- Settles O41: three roundings are off by far less than a fraction of 65535 is from a tie. -/
theorem agreesWithBinary64 : Obligations.AgreesWithBinary64 := by
  intro raw
  refine ⟨?_, ?_⟩
  · rw [tempFx_eq_q16, tempVal_eq_tempNum_div]
    exact (floor_of_near (tempVal_eq_tempNum_div raw ▸ abs_temp64_sub_le raw)).symm
  · obtain ⟨n, isFraction⟩ := humVal_eq_div raw
    rw [humFx_eq_q16, isFraction]
    exact (floor_of_near (isFraction ▸ abs_hum64_sub_le raw)).symm

end Sys2Proof.Machine

/-! ## The assembler and the disassembler (30_encoding.md R58, R59) -/

namespace Sys2Proof.Machine

/-! ### Assembling a source line -/

/-- A mnemonic builds an operation from exactly as many bytes as it takes. -/
theorem buildInstr_eq_none_iff (m : Mnemonic) : ∀ bs : List Byte, buildInstr m bs = none ↔ bs.length ≠ m.arity
  | [] | [_] | [_, _] | [_, _, _] | [_, _, _, _] | [_, _, _, _, _] | [_, _, _, _, _, _]
  | _ :: _ :: _ :: _ :: _ :: _ :: _ :: _ => by cases m <;> simp [buildInstr, Mnemonic.arity]

/-- The four ends of a source line, in the order of the checks (30_encoding.md R59). -/
theorem assembleSource_cases (l : SourceLine) :
    (l.mnemonicKnown = false ∧ l.countRight = false ∧ assembleSource l = .error .unknownMnemonic) ∨
    (l.mnemonicKnown = true ∧ l.countRight = false ∧ assembleSource l = .error .wrongOperandCount) ∨
    (l.mnemonicKnown = true ∧ l.countRight = true ∧ l.bytesInRange = false ∧ assembleSource l = .error .byteOutOfRange) ∨
    (l.mnemonicKnown = true ∧ l.countRight = true ∧ l.bytesInRange = true ∧ ∃ i, assembleSource l = .ok (encode i)) := by
  rcases known : Mnemonic.find l.word with _ | m
  · simp [assembleSource, SourceLine.mnemonicKnown, SourceLine.countRight, known]
  · rcases built : buildInstr m (l.operands.map (fun v => BitVec.ofNat 8 v)) with _ | i
    · have wrongCount : l.operands.length ≠ m.arity := by simpa using (buildInstr_eq_none_iff m _).mp built
      simp [assembleSource, SourceLine.mnemonicKnown, SourceLine.countRight, known, built, wrongCount]
    · have rightCount : l.operands.length = m.arity := by
        simpa [built] using (buildInstr_eq_none_iff m (l.operands.map (fun v => BitVec.ofNat 8 v))).not
      cases inRange : l.bytesInRange
      · simp [assembleSource, SourceLine.mnemonicKnown, SourceLine.countRight, known, built, rightCount, inRange]
      · simp [assembleSource, SourceLine.mnemonicKnown, SourceLine.countRight, known, built, rightCount, inRange]

/-- Settles O9: each end of the line names the first check that fails, or none. -/
theorem assemblyErrorsExactly : Obligations.AssemblyErrorsExactly := by
  intro l
  rcases assembleSource_cases l with ⟨known, count, ends⟩ | ⟨known, count, ends⟩ | ⟨known, count, range, ends⟩ |
    ⟨known, count, range, i, ends⟩
  · simp [SourceLine.wf, known, count, ends]
  · simp [SourceLine.wf, known, count, ends]
  · simp [SourceLine.wf, known, count, range, ends]
  · simp [SourceLine.wf, known, count, range, ends]

/-! ### Characters -/

/-- A character that ends neither a word nor an operand nor the code of a line. -/
def isPlain (c : Char) : Bool := !isBlank c && c != ',' && c != ';'

theorem not_isBlank_of_isPlain {c : Char} (plain : isPlain c = true) : isBlank c = false := by
  simp_all [isPlain]

theorem ne_comma_of_isPlain {c : Char} (plain : isPlain c = true) : c ≠ ',' := by
  simp_all [isPlain]

theorem ne_semicolon_of_isPlain {c : Char} (plain : isPlain c = true) : c ≠ ';' := by
  simp_all [isPlain]

theorem isPlain_hexChar : ∀ n < 16, isPlain (hexChar n) = true := by decide

theorem isPlain_hexPair (b : Byte) : ∀ c ∈ hexPair b, isPlain c = true := by
  have high : b.toNat / 16 < 16 := by omega
  have low : b.toNat % 16 < 16 := by omega
  simp [hexPair, isPlain_hexChar _ high, isPlain_hexChar _ low]

theorem isPlain_byteText (b : Byte) : ∀ c ∈ byteText b, isPlain c = true := by
  have zero : isPlain '0' = true := rfl
  have x : isPlain 'x' = true := rfl
  simpa [byteText, zero, x] using isPlain_hexPair b

theorem isPlain_name (m : Mnemonic) : ∀ c ∈ m.name, isPlain c = true :=
  List.all_eq_true.mp (by cases m <;> rfl)

/-! ### Blanks at the ends -/

/-- A text with no blank at either end. -/
def Trimmed (cs : List Char) : Prop := (∀ c ∈ cs.head?, isBlank c = false) ∧ ∀ c ∈ cs.getLast?, isBlank c = false

theorem dropWhile_of_head {cs : List Char} (h : ∀ c ∈ cs.head?, isBlank c = false) : cs.dropWhile isBlank = cs := by
  cases cs with
  | nil => rfl
  | cons c cs => exact List.dropWhile_cons_of_neg (by simp [h c rfl])

theorem trimBlanks_of_trimmed {cs : List Char} (trimmed : Trimmed cs) : trimBlanks cs = cs := by
  obtain ⟨first, last⟩ := trimmed
  rw [trimBlanks, dropWhile_of_head first, dropWhile_of_head (by rwa [List.head?_reverse]), List.reverse_reverse]

theorem trimBlanks_blank_cons (cs : List Char) : trimBlanks (' ' :: cs) = trimBlanks cs := rfl

theorem trimmed_of_isPlain {cs : List Char} (plain : ∀ c ∈ cs, isPlain c = true) : Trimmed cs :=
  ⟨fun c first => not_isBlank_of_isPlain (plain c (List.mem_of_mem_head? first)),
    fun c last => not_isBlank_of_isPlain (plain c (List.mem_of_getLast? last))⟩

/-- What stands between two trimmed texts does not matter. -/
theorem Trimmed.append {as bs : List Char} (ha : Trimmed as) (hb : Trimmed bs) (hane : as ≠ []) (hbne : bs ≠ [])
    (mid : List Char) : Trimmed (as ++ mid ++ bs) := by
  refine ⟨?_, ?_⟩
  · rw [List.append_assoc, List.head?_append_of_ne_nil _ hane]
    exact ha.1
  · rw [List.getLast?_append_of_ne_nil _ hbne]
    exact hb.2

/-! ### Operands as text and back -/

theorem hexDigit_hexChar : ∀ n < 16, hexDigit (hexChar n) = some n := by decide

theorem readLiteral_byteText (b : Byte) : readLiteral (byteText b) = some b.toNat := by
  have high : b.toNat / 16 < 16 := by omega
  have low : b.toNat % 16 < 16 := by omega
  have value : b.toNat / 16 * 16 + b.toNat % 16 = b.toNat := by omega
  simp [byteText, hexPair, readLiteral, readDigits, hexDigit_hexChar _ high, hexDigit_hexChar _ low, value]

theorem splitCommas_ne_nil (cs : List Char) : splitCommas cs ≠ [] := by
  cases cs with
  | nil => simp [splitCommas]
  | cons c cs =>
    rcases parts : splitCommas cs with _ | ⟨p, ps⟩
    · simp [splitCommas, parts]
    · by_cases isComma : c = ',' <;> simp [splitCommas, parts, isComma]

/-- A character that is no comma joins the part it stands in. -/
theorem splitCommas_cons {c : Char} (notComma : c ≠ ',') (cs : List Char) :
    ∃ p ps, splitCommas cs = p :: ps ∧ splitCommas (c :: cs) = (c :: p) :: ps := by
  obtain ⟨p, ps, parts⟩ := List.exists_cons_of_ne_nil (splitCommas_ne_nil cs)
  exact ⟨p, ps, parts, by simp [splitCommas, parts, notComma]⟩

/-- A comma ends a part. -/
theorem splitCommas_comma (cs : List Char) : splitCommas (',' :: cs) = [] :: splitCommas cs := by
  obtain ⟨p, ps, parts⟩ := List.exists_cons_of_ne_nil (splitCommas_ne_nil cs)
  simp [splitCommas, parts]

/-- A text without a comma is one part. -/
theorem splitCommas_of_isPlain {cs : List Char} (plain : ∀ c ∈ cs, isPlain c = true) : splitCommas cs = [cs] := by
  induction cs with
  | nil => rfl
  | cons c cs ih =>
    simp only [List.mem_cons, forall_eq_or_imp] at plain
    simp [splitCommas, ih plain.2, ne_comma_of_isPlain plain.1]

theorem splitCommas_append_comma {as : List Char} (plain : ∀ c ∈ as, isPlain c = true) (cs : List Char) :
    splitCommas (as ++ ',' :: cs) = as :: splitCommas cs := by
  induction as with
  | nil => exact splitCommas_comma cs
  | cons c as ih =>
    simp only [List.mem_cons, forall_eq_or_imp] at plain
    simp [splitCommas, ih plain.2, ne_comma_of_isPlain plain.1]

/-- A blank in front of the operands is dropped with those around the first one. -/
theorem readAll_splitCommas_blank (cs : List Char) : readAll (splitCommas (' ' :: cs)) = readAll (splitCommas cs) := by
  obtain ⟨p, ps, parts, parts'⟩ := splitCommas_cons (c := ' ') (by decide) cs
  rw [parts', parts]
  rfl

theorem operandsText_cons_cons (b b' : Byte) (bs : List Byte) :
    operandsText (b :: b' :: bs) = byteText b ++ [',', ' '] ++ operandsText (b' :: bs) := rfl

theorem readAll_byteText_cons (b : Byte) {ps : List (List Char)} {vs : List Nat} (rest : readAll ps = some vs) :
    readAll (byteText b :: ps) = some (b.toNat :: vs) := by
  simp [readAll, trimBlanks_of_trimmed (trimmed_of_isPlain (isPlain_byteText b)), readLiteral_byteText, rest]

/-- The operands the disassembler prints are read back as their values. -/
theorem readAll_operandsText (b : Byte) (bs : List Byte) :
    readAll (splitCommas (operandsText (b :: bs))) = some ((b :: bs).map BitVec.toNat) := by
  induction bs generalizing b with
  | nil =>
    rw [operandsText, splitCommas_of_isPlain (isPlain_byteText b)]
    exact readAll_byteText_cons b rfl
  | cons b' bs ih =>
    rw [operandsText_cons_cons, List.append_assoc, List.cons_append, splitCommas_append_comma (isPlain_byteText b)]
    exact readAll_byteText_cons b ((readAll_splitCommas_blank _).trans (ih b'))

theorem byteText_ne_nil (b : Byte) : byteText b ≠ [] := by simp [byteText]

theorem operandsText_ne_nil (b : Byte) (bs : List Byte) : operandsText (b :: bs) ≠ [] := by
  cases bs with
  | nil => exact byteText_ne_nil b
  | cons b' bs => simp [operandsText_cons_cons]

theorem trimmed_operandsText (b : Byte) (bs : List Byte) : Trimmed (operandsText (b :: bs)) := by
  induction bs generalizing b with
  | nil => exact trimmed_of_isPlain (isPlain_byteText b)
  | cons b' bs ih =>
    exact (trimmed_of_isPlain (isPlain_byteText b)).append (ih b') (byteText_ne_nil b) (operandsText_ne_nil b' bs) _

theorem operandsText_ne_semicolon (b : Byte) (bs : List Byte) : ∀ c ∈ operandsText (b :: bs), c ≠ ';' := by
  have operand : ∀ b, ∀ c ∈ byteText b, c ≠ ';' := fun b c isIn => ne_semicolon_of_isPlain (isPlain_byteText b c isIn)
  induction bs generalizing b with
  | nil => exact operand b
  | cons b' bs ih =>
    intro c isIn
    simp only [operandsText_cons_cons, List.mem_append] at isIn
    rcases isIn with (isIn | isIn) | isIn
    · exact operand b c isIn
    · simp only [List.mem_cons, List.not_mem_nil, or_false] at isIn
      rcases isIn with rfl | rfl <;> decide
    · exact ih b' c isIn

/-! ### A line of one word and its operands -/

/-- A line of a word, a blank and more text is read as the word and the operands in the text. -/
theorem parseLine_word_blank {word rest : List Char} (hword : word ≠ []) (plain : ∀ c ∈ word, isPlain c = true)
    (hrest : rest ≠ []) (trimmed : Trimmed rest) (noComment : ∀ c ∈ rest, c ≠ ';') :
    parseLine (word ++ [' '] ++ rest) =
      (readAll (splitCommas rest)).elim (.error .badLiteral) (fun vs => .ok (some { word := word, operands := vs })) := by
  have noBlank : ∀ c ∈ word, (!isBlank c) = true := fun c isIn => by simp [not_isBlank_of_isPlain (plain c isIn)]
  have noSemicolon : dropComment (word ++ [' '] ++ rest) = word ++ [' '] ++ rest := by
    refine List.takeWhile_eq_self_iff.mpr fun c isIn => bne_iff_ne.mpr ?_
    simp only [List.mem_append, List.mem_singleton] at isIn
    rcases isIn with (isIn | rfl) | isIn
    · exact ne_semicolon_of_isPlain (plain c isIn)
    · decide
    · exact noComment c isIn
  have body : trimBlanks (dropComment (word ++ [' '] ++ rest)) = word ++ ' ' :: rest := by
    rw [noSemicolon, trimBlanks_of_trimmed ((trimmed_of_isPlain plain).append trimmed hword hrest _), List.append_assoc]
    rfl
  have first : (word ++ ' ' :: rest).takeWhile (fun c => !isBlank c) = word := by
    rw [List.takeWhile_append_of_pos noBlank]
    exact List.append_nil word
  have second : trimBlanks ((word ++ ' ' :: rest).dropWhile (fun c => !isBlank c)) = rest := by
    rw [List.dropWhile_append_of_pos noBlank]
    exact trimBlanks_of_trimmed trimmed
  simp only [parseLine, body, first, second]
  rcases readAll (splitCommas rest) with _ | vs
  · simp [hword, hrest]
  · simp [hword, hrest]

/-! ### The disassembler -/

theorem name_ne_nil (m : Mnemonic) : m.name ≠ [] := by
  cases m <;> simp [Mnemonic.name]

/-- An operation is built from its mnemonic and the bytes it reads. -/
theorem buildInstr_instr (i : Instr) : buildInstr (instrMnemonic i) (instrOperands i) = some i := by
  cases i <;> rfl

/-- Every operation reads a byte. -/
theorem instrOperands_eq_cons (i : Instr) : ∃ b bs, instrOperands i = b :: bs := by
  cases i <;> exact ⟨_, _, rfl⟩

/-- The text of an operation assembles to its canonical encoding. -/
theorem assembleLine_instrText (i : Instr) : assembleLine (instrText i) = .ok (some (encode i)) := by
  obtain ⟨b, bs, operands⟩ := instrOperands_eq_cons i
  have parsed : parseLine (instrText i) =
      .ok (some { word := (instrMnemonic i).name, operands := (instrOperands i).map BitVec.toNat }) := by
    rw [instrText, operands, parseLine_word_blank (name_ne_nil _) (isPlain_name _) (operandsText_ne_nil b bs)
      (trimmed_operandsText b bs) (operandsText_ne_semicolon b bs), readAll_operandsText]
    rfl
  simp only [assembleLine, parsed, assembleSource_bytes (buildInstr_instr i)]

/-- A line whose first word is no mnemonic assembles to nothing but an error. -/
theorem assembleLine_of_unknown {word rest : List Char} (unknown : Mnemonic.find word = none) (hword : word ≠ [])
    (plain : ∀ c ∈ word, isPlain c = true) (hrest : rest ≠ []) (plainRest : ∀ c ∈ rest, isPlain c = true)
    (w : Option Request) : assembleLine (word ++ [' '] ++ rest) ≠ .ok w := by
  have parsed := parseLine_word_blank hword plain hrest (trimmed_of_isPlain plainRest)
    fun c isIn => ne_semicolon_of_isPlain (plainRest c isIn)
  rw [assembleLine, parsed]
  rcases readAll (splitCommas rest) with _ | vs
  · simp
  · simp [assembleSource, unknown]

/-- The digits of an illegal word as the disassembler prints them. -/
def illegalDigits (r : Request) : List Char :=
  ['0', 'x'] ++ hexPair (reqOp r) ++ hexPair (reqB0 r) ++ hexPair (reqB1 r) ++ hexPair (reqB2 r) ++ hexPair (reqB3 r)
    ++ hexPair (reqB4 r) ++ hexPair (reqB5 r)

theorem isPlain_illegalDigits (r : Request) : ∀ c ∈ illegalDigits r, isPlain c = true := by
  have ox : ∀ c ∈ ['0', 'x'], isPlain c = true := List.all_eq_true.mp rfl
  intro c isIn
  simp only [illegalDigits, List.mem_append] at isIn
  rcases isIn with ((((((isIn | isIn) | isIn) | isIn) | isIn) | isIn) | isIn) | isIn
  · exact ox c isIn
  all_goals exact isPlain_hexPair _ c isIn

theorem illegalText_eq (r : Request) : illegalText r = ['.', 'r', 'e', 'q'] ++ [' '] ++ illegalDigits r := by
  simp [illegalText, illegalDigits]

theorem assembleLine_illegalText (r : Request) (w : Option Request) : assembleLine (illegalText r) ≠ .ok w := by
  rw [illegalText_eq]
  exact assembleLine_of_unknown rfl (by simp) (List.all_eq_true.mp rfl) (by simp [illegalDigits]) (isPlain_illegalDigits r) w

/-- Settles O10: a legal word prints as its operation, an illegal one as a line whose word is no mnemonic. -/
theorem disassembleThenAssemble : Obligations.DisassembleThenAssemble := by
  intro r
  rcases decoded : decode r with ⟨op⟩ | i
  · have text : disassemble r = illegalText r := by simp only [disassemble, decoded]
    simp only [text]
    exact ⟨rfl, assembleLine_illegalText r⟩
  · have text : disassemble r = instrText i := by simp only [disassemble, decoded]
    simp only [text]
    exact assembleLine_instrText i

end Sys2Proof.Machine
